-- ==== Sys2Proof/Word.lean ====
section
/-! DEFINITION. The plain word types of SimpleBinary CORE (00_scope.md rule R8): bytes, the 16-bit item
addresses and length fields, the 32-bit millisecond clock readings. All are unsigned. -/

namespace Sys2Proof

/-- One byte of a frame, a buffer or a payload (rule R8). -/
abbrev Byte := BitVec 8

/-- A 16-bit value: an item address or an Array length field (rules R8, R82). -/
abbrev Word16 := BitVec 16

/-- A 32-bit unsigned reading of the millisecond clock, or a duration compared with one (rule R43). -/
abbrev Word32 := BitVec 32

/-- A frame: its bytes in transmission order, first byte first (rule R9). -/
abbrev Frame := List Byte

end Sys2Proof
end

