-- ==== Sys2Proof/Machine/Crc8.lean ====
section
/-! DEFINITION. The CRC-8 generator (40_crc8.md rules R110, R111). -/

namespace Sys2Proof.Machine

/-- The constant `0x1070 << 3`, that is 0x8380 (rule R111). -/
def crcConstant : Word16 := 0x1070#16 <<< 3

/-- One round: test bit 15, exclusive-or the constant if it is set, then shift left by one in 16 bits (rules R110,
R111). -/
def crcRound (acc : Word16) : Word16 :=
  (if acc.getLsbD 15 then acc ^^^ crcConstant else acc) <<< 1

/-- `n` rounds in a row. -/
def crcRounds : Nat → Word16 → Word16
  | 0, acc => acc
  | n + 1, acc => crcRounds n (crcRound acc)

/-- One input byte: into bits 15..8 of the accumulator, then eight rounds (rule R110). -/
def crcByte (acc : Word16) (b : Byte) : Word16 :=
  crcRounds 8 (acc ^^^ (b.setWidth 16 <<< 8))

/-- The accumulator after a byte sequence, started from `acc` (rule R110). -/
def crcFold (acc : Word16) (s : List Byte) : Word16 :=
  s.foldl crcByte acc

/-- `CRC8(s)` (rule R110): the high byte of the accumulator, started at 0. -/
def crc8 (s : List Byte) : Byte :=
  (crcFold 0 s >>> 8).setWidth 8

/-- `WithCrc(b) = b ++ [CRC8(b)]` (45_tx_frames.md rule R176). -/
def withCrc (b : List Byte) : Frame := b ++ [crc8 b]

end Sys2Proof.Machine
end

