-- ==== Sys2Proof/Config.lean ====
section
/-! DEFINITION. The configuration of one engine (00_scope.md rule R6, 10_state.md rule R34) and the item kinds
(rule R7). The configuration is held in the machine's state so that a statement about every state holds for every
configuration; no step writes it. -/

namespace Sys2Proof

/-- The kind of an item (rules R6, R7, R24). -/
inductive Kind where
  | byte
  | word
  | dword
  | float
  | hsb
  | rgb
  | rgbw
  | array
deriving DecidableEq, Repr

/-- The configuration parameters that do not belong to one item (rules R6, R34). -/
structure Config where
  /-- `DEV_ADDR`: the device address, compared with byte 0 of every received frame. -/
  devAddr : Byte
  /-- `STALE_MS`: the stale-buffer timeout. -/
  staleMs : Word32
  /-- `TURN_MS`: the turnaround delay; 0 disables it. -/
  turnMs : Word32
  /-- `EN_CRC_RESP`: the 0xE1 response is enabled. -/
  enCrcResp : Bool
  /-- `EN_FLAG_RESP`: the 0xE3 response is enabled. -/
  enFlagResp : Bool
  /-- `FULL_DUPLEX`: the unsolicited operations are enabled. -/
  fullDuplex : Bool
  /-- `FLOW_CTRL`: the direction signal is driven around each write. -/
  flowCtrl : Bool
  /-- `RX_CAP`: the capacity of the receive buffer in bytes. -/
  rxCap : Nat
  /-- `TABLE_CAP`: the capacity of the item table. -/
  tableCap : Nat
  /-- The addresses of the Array items the host is to be able to write: the items rule R6 bounds by `RX_CAP` (rule
  R263). It says nothing else: a write to any other Array is executed all the same. -/
  hostArrays : List Word16
deriving DecidableEq, Repr

/-- The defaults of rule R6. DESIGN CHOICE (unsafe, log 1): rule R6 gives no default for `DEV_ADDR`, `TABLE_CAP` and the
Arrays the host is to write; 1 is the address of the spec's own scenarios (95_test_vectors.md S2 and its
conventions), 16 the table size of its reference transcription (95_test_vectors.md part 4), and no Array is named. -/
def Config.default : Config :=
  { devAddr := 1, staleMs := 10, turnMs := 0, enCrcResp := false, enFlagResp := false, fullDuplex := false,
    flowCtrl := false, rxCap := 64, tableCap := 16, hostArrays := [] }

end Sys2Proof
end

