-- ==== Sys2Proof/Machine/Operands.lean ====
section
/-! DEFINITION. The operand forms of a frame and of the application port: little-endian fields (rules R60, R82),
the fixed payload lengths (rule R7), the numeric reading of a value (rule R27), and which write command an item
kind accepts (rules R160, R169). -/

namespace Sys2Proof.Machine

/-- A 16-bit field from its two bytes, low byte first: `zext_16(lo) | (zext_16(hi) << 8)` (rules R60, R82). -/
def le16 (lo hi : Byte) : Word16 := lo.setWidth 16 ||| (hi.setWidth 16 <<< 8)

/-- The low byte `v[7:0]` of a 16-bit field, first on the wire (rule R60). -/
def lo8 (v : Word16) : Byte := v.setWidth 8

/-- The high byte `v[15:8]` of a 16-bit field (rule R60). -/
def hi8 (v : Word16) : Byte := (v >>> 8).setWidth 8

/-- Byte `n` of a sequence; 0 past its end (callers read only indices below the length, rule R9). -/
def byteAt (s : List Byte) (n : Nat) : Byte := s.getD n 0

/-- `KLEN(kind)`, the fixed payload length of a kind; `none` for Array (rule R7). -/
def klen : Kind → Option Nat
  | .byte => some 1
  | .word => some 2
  | .dword => some 4
  | .float => some 4
  | .hsb => some 4
  | .rgb => some 4
  | .rgbw => some 4
  | .array => none

/-- The four-byte kinds (rule R7). -/
def fourByte : Kind → Bool
  | .dword => true
  | .float => true
  | .hsb => true
  | .rgb => true
  | .rgbw => true
  | .byte => false
  | .word => false
  | .array => false

/-- The write commands of rule R85. -/
inductive WriteCmd where
  | wrb
  | wrw
  | wrd
  | wrc
  | wra
deriving DecidableEq, Repr

/-- `Accepts(C, kind)` (rules R160, R169): each of 0xDC and 0xDD is accepted by every four-byte kind. -/
def accepts : WriteCmd → Kind → Bool
  | .wrb, k => k == .byte
  | .wrw, k => k == .word
  | .wrd, k => fourByte k
  | .wrc, k => fourByte k
  | .wra, k => k == .array

/-- A new value at the application port (rules R27, R217): its bytes in wire order, or a number. -/
inductive AppValue where
  | bytes (v : List Byte)
  | number (v : Word32)
deriving DecidableEq, Repr

/-- The four bytes of a number, low byte first (rule R27). -/
def numberBytes (v : Word32) : List Byte :=
  [v.setWidth 8, (v >>> 8).setWidth 8, (v >>> 16).setWidth 8, (v >>> 24).setWidth 8]

/-- The wire bytes an application value stands for at an item of a kind (rule R27): a number is cut to the kind's
length for Byte, Word and Dword; the source gives the other kinds no numeric reading, so there is none. -/
def appBytes : Kind → AppValue → Option (List Byte)
  | _, .bytes v => some v
  | .byte, .number v => some ((numberBytes v).take 1)
  | .word, .number v => some ((numberBytes v).take 2)
  | .dword, .number v => some (numberBytes v)
  | .float, .number _ => none
  | .hsb, .number _ => none
  | .rgb, .number _ => none
  | .rgbw, .number _ => none
  | .array, .number _ => none

end Sys2Proof.Machine
end

