-- ==== Sys2Proof/Syntax.lean ====
section
/-! DEFINITION. The instruction set: the nineteen frame types of spec/opcode_table.json (30_encoding.md rules
R2, R83 to R89, R95). Byte 0 (the device address) and the last byte (the CRC) are not operands: the first is
the engine's own `DEV_ADDR` and the second is computed (rules R80, R81). -/

namespace Sys2Proof

/-- One constructor per row of spec/opcode_table.json, in the table's order: seven frames the host sends and the
dispatcher executes, twelve frames the device's encoder builds and sends. -/
inductive Instr where
  /-- `POLL flag` (0xD0, rule R83): poll for new data; flag 1 forces every item dirty first. -/
  | poll (flag : Byte)
  /-- `READ addr` (0xD1, rule R84). -/
  | read (addr : Word16)
  /-- `WRB addr, d0` (0xDA, rule R85): write a Byte item. -/
  | wrb (addr : Word16) (d0 : Byte)
  /-- `WRW addr, d0 d1` (0xDB, rule R85): write a Word item. -/
  | wrw (addr : Word16) (d0 d1 : Byte)
  /-- `WRD addr, d0 d1 d2 d3` (0xDC, rule R85): write a four-byte item. -/
  | wrd (addr : Word16) (d0 d1 d2 d3 : Byte)
  /-- `WRC addr, d0 d1 d2 d3` (0xDD, rule R85): write a four-byte item. -/
  | wrc (addr : Word16) (d0 d1 d2 d3 : Byte)
  /-- `WRA addr, len, d0 ..` (0xDE, rule R85): write an Array item; `len` is the number of data bytes. -/
  | wra (addr : Word16) (data : List Byte)
  /-- `PUSHB addr, d0` (0xDA, rules R88, R182). -/
  | pushb (addr : Word16) (d0 : Byte)
  /-- `PUSHW addr, d0 d1` (0xDB, rules R88, R183). -/
  | pushw (addr : Word16) (d0 d1 : Byte)
  /-- `PUSHD addr, d0 d1 d2 d3` (0xDC, rules R88, R184). -/
  | pushd (addr : Word16) (d0 d1 d2 d3 : Byte)
  /-- `PUSHC addr, d0 d1 d2 d3` (0xDD, rules R88, R185). -/
  | pushc (addr : Word16) (d0 d1 d2 d3 : Byte)
  /-- `PUSHA addr, len, d0 ..` (0xDE, rules R88, R186). -/
  | pusha (addr : Word16) (data : List Byte)
  /-- `ACK` (0xE0, rules R89, R187): write accepted. -/
  | ack
  /-- `BADCRC failingCrc` (0xE1, rules R89, R188): CRC mismatch. -/
  | badcrc (failingCrc : Byte)
  /-- `NODATA` (0xE2, rules R89, R189): no item has new data. -/
  | nodata
  /-- `BADFLAG` (0xE3, rules R89, R190): unrecognised poll flag. -/
  | badflag
  /-- `NOADDR` (0xE4, rules R89, R191): address not found. -/
  | noaddr
  /-- `WRREJ` (0xE5, rules R89, R192): write rejected. -/
  | wrrej
  /-- `HELLO` (0xE6, rules R89, R193): unsolicited greeting. -/
  | hello
deriving DecidableEq, Repr

/-- The alias `FPOLL` (rule R96): `POLL` with flag 1, "force all items dirty then poll". -/
def Instr.fpoll : Instr := .poll 0x01

/-- The mnemonic of a frame type (rule R95). -/
def Instr.mnemonic : Instr → String
  | .poll _ => "POLL"
  | .read _ => "READ"
  | .wrb _ _ => "WRB"
  | .wrw _ _ _ => "WRW"
  | .wrd _ _ _ _ _ => "WRD"
  | .wrc _ _ _ _ _ => "WRC"
  | .wra _ _ => "WRA"
  | .pushb _ _ => "PUSHB"
  | .pushw _ _ _ => "PUSHW"
  | .pushd _ _ _ _ _ => "PUSHD"
  | .pushc _ _ _ _ _ => "PUSHC"
  | .pusha _ _ => "PUSHA"
  | .ack => "ACK"
  | .badcrc _ => "BADCRC"
  | .nodata => "NODATA"
  | .badflag => "BADFLAG"
  | .noaddr => "NOADDR"
  | .wrrej => "WRREJ"
  | .hello => "HELLO"

end Sys2Proof
end

