-- ==== Sys2Proof/WellFormed.lean ====
section
/-! DEFINITION. Which instructions are well formed, and which way each frame travels. -/

namespace Sys2Proof

/-- The frame is one the host sends to the device (rule R2; "dir" column of rule R95). -/
def Instr.fromHost : Instr → Bool
  | .poll _ => true
  | .read _ => true
  | .wrb _ _ => true
  | .wrw _ _ _ => true
  | .wrd _ _ _ _ _ => true
  | .wrc _ _ _ _ _ => true
  | .wra _ _ => true
  | .pushb _ _ => false
  | .pushw _ _ _ => false
  | .pushd _ _ _ _ _ => false
  | .pushc _ _ _ _ _ => false
  | .pusha _ _ => false
  | .ack => false
  | .badcrc _ => false
  | .nodata => false
  | .badflag => false
  | .noaddr => false
  | .wrrej => false
  | .hello => false

/-- An instruction is well formed when its operands fit its frame: the length field of an Array frame has 16 bits
(rules R82 (b), R86), so at most 65535 data bytes. Every other operand has its field's own width, and every value
of it is encodable (rule R91 for the poll flag). -/
def Instr.wellFormed : Instr → Bool
  | .wra _ data => decide (data.length ≤ 65535)
  | .pusha _ data => decide (data.length ≤ 65535)
  | .poll _ => true
  | .read _ => true
  | .wrb _ _ => true
  | .wrw _ _ _ => true
  | .wrd _ _ _ _ _ => true
  | .wrc _ _ _ _ _ => true
  | .pushb _ _ => true
  | .pushw _ _ _ => true
  | .pushd _ _ _ _ _ => true
  | .pushc _ _ _ _ _ => true
  | .ack => true
  | .badcrc _ => true
  | .nodata => true
  | .badflag => true
  | .noaddr => true
  | .wrrej => true
  | .hello => true

end Sys2Proof
end

