-- ==== Sys2Proof/Decode.lean ====
section
/-! DEFINITION. The frame decoder's reading of the bytes at the front of a buffer (41_rx_framer.md rules R123 to
R129), the reading of a device-to-host frame (30_encoding.md rules R87 to R89), and the encoder (rules R80, R81,
R83 to R89). -/

namespace Sys2Proof

open Sys2Proof.Machine

/-- Why the bytes at the front of a buffer are not a frame, one name per check, in the order of the checks
(60_exceptions.md rule R237). -/
inductive DecodeError where
  /-- Fewer than 4 bytes: wait (rule R125). -/
  | tooShort
  /-- The first byte is not the device address (rule R124). -/
  | foreignAddress
  /-- The second byte is none of the command bytes of this direction (rules R90, R132). -/
  | unknownCommand (c : Byte)
  /-- The command's full length is not there yet: wait (rules R127, R128). -/
  | incomplete
  /-- The frame is complete and its last byte is not the computed CRC, `computed` (rules R129, R130). -/
  | crcMismatch (computed : Byte)
  /-- A status frame whose data byte the device never sends. DESIGN CHOICE (safe, log 16): rule R92 says that the source
  does not say what a host does with one; this reading refuses it. -/
  | reservedData (d : Byte)
deriving DecidableEq, Repr

/-- The seven commands the decoder recognises (rules R2, R90). -/
inductive HostCmd where
  | poll
  | read
  | wrb
  | wrw
  | wrd
  | wrc
  | wra
deriving DecidableEq, Repr

/-- The command byte `C` of a host-to-device frame type (rules R83 to R85). -/
def hostCode : HostCmd → Byte
  | .poll => 0xD0
  | .read => 0xD1
  | .wrb => 0xDA
  | .wrw => 0xDB
  | .wrd => 0xDC
  | .wrc => 0xDD
  | .wra => 0xDE

/-- The command a received command byte names; `none` for every unrecognised value (rule R90). -/
def hostCmd (c : Byte) : Option HostCmd :=
  if c = 0xD0 then some .poll
  else if c = 0xD1 then some .read
  else if c = 0xDA then some .wrb
  else if c = 0xDB then some .wrw
  else if c = 0xDC then some .wrd
  else if c = 0xDD then some .wrc
  else if c = 0xDE then some .wra
  else none

/-- `FrameLen` (rule R86): the length of a frame from its command and, for 0xDE, its length field. -/
def frameLen : HostCmd → Word16 → Nat
  | .poll, _ => 4
  | .read, _ => 5
  | .wrb, _ => 6
  | .wrw, _ => 7
  | .wrd, _ => 9
  | .wrc, _ => 9
  | .wra, len => 7 + len.toNat

/-- The item address of a frame, from indices 2 and 3 (rule R82 (a)). -/
def frameAddr (f : List Byte) : Word16 := le16 (byteAt f 2) (byteAt f 3)

/-- The Array length field of a frame, from indices 4 and 5 (rule R82 (b)). -/
def frameDataLen (f : List Byte) : Word16 := le16 (byteAt f 4) (byteAt f 5)

/-- The data bytes of an Array frame: `f[6 .. 6+len)` (rule R85). -/
def frameData (f : List Byte) : List Byte := (f.drop 6).take (frameDataLen f).toNat

/-- The operands of a complete host-to-device frame (rules R82 to R85). -/
def hostInstr : HostCmd → List Byte → Instr
  | .poll, f => .poll (byteAt f 2)
  | .read, f => .read (frameAddr f)
  | .wrb, f => .wrb (frameAddr f) (byteAt f 4)
  | .wrw, f => .wrw (frameAddr f) (byteAt f 4) (byteAt f 5)
  | .wrd, f => .wrd (frameAddr f) (byteAt f 4) (byteAt f 5) (byteAt f 6) (byteAt f 7)
  | .wrc, f => .wrc (frameAddr f) (byteAt f 4) (byteAt f 5) (byteAt f 6) (byteAt f 7)
  | .wra, f => .wra (frameAddr f) (frameData f)

/-- The length of the frame that begins a sequence, once enough of it is there to tell: a 0xDE frame needs its
length field first (rules R126, R127). -/
def neededLen (cmd : HostCmd) (bs : List Byte) : Option Nat :=
  if cmd = .wra ∧ bs.length < 6 then none
  else if bs.length < frameLen cmd (frameDataLen bs) then none
  else some (frameLen cmd (frameDataLen bs))

/-- The CRC check of the first `len` bytes (rule R129): the instruction and the rest, or the computed CRC. -/
def checkedFrame (i : List Byte → Instr) (len : Nat) (bs : List Byte) : Except DecodeError (Instr × List Byte) :=
  if crc8 (bs.take (len - 1)) = byteAt bs (len - 1) then .ok (i (bs.take len), bs.drop len)
  else .error (.crcMismatch (crc8 (bs.take (len - 1))))

/-- The decoder's reading of the front of the receive buffer by the device with address `dev`, the checks in the
order of rule R123: the instruction and the bytes after its frame, or the name of the check that failed. -/
def decode (dev : Byte) (bs : List Byte) : Except DecodeError (Instr × List Byte) :=
  if bs.length < 4 then .error .tooShort
  else if byteAt bs 0 ≠ dev then .error .foreignAddress
  else
    match hostCmd (byteAt bs 1) with
    | none => .error (.unknownCommand (byteAt bs 1))
    | some cmd =>
      match neededLen cmd bs with
      | none => .error .incomplete
      | some len => checkedFrame (hostInstr cmd) len bs

/-! ### Device-to-host frames, as the host reads them -/

/-- The operands of a complete push frame: the layout of the write frame of the same command byte (rule R88). -/
def pushInstr : HostCmd → List Byte → Option Instr
  | .poll, _ => none
  | .read, _ => none
  | .wrb, f => some (.pushb (frameAddr f) (byteAt f 4))
  | .wrw, f => some (.pushw (frameAddr f) (byteAt f 4) (byteAt f 5))
  | .wrd, f => some (.pushd (frameAddr f) (byteAt f 4) (byteAt f 5) (byteAt f 6) (byteAt f 7))
  | .wrc, f => some (.pushc (frameAddr f) (byteAt f 4) (byteAt f 5) (byteAt f 6) (byteAt f 7))
  | .wra, f => some (.pusha (frameAddr f) (frameData f))

/-- The status frame of a command byte and a data byte (rule R89): only 0xE1 carries a data byte. The device sends no
other data byte than 0 in the others (rule R92); that the host's reading has no frame for another value is a DESIGN
CHOICE (safe, log 16): the source does not say what a host does with it. -/
def statusInstr (c d : Byte) : Option Instr :=
  if c = 0xE1 then some (.badcrc d)
  else if d ≠ 0 then none
  else if c = 0xE0 then some .ack
  else if c = 0xE2 then some .nodata
  else if c = 0xE3 then some .badflag
  else if c = 0xE4 then some .noaddr
  else if c = 0xE5 then some .wrrej
  else if c = 0xE6 then some .hello
  else none

/-- `c` is the command byte of a status frame, 0xE0 to 0xE6 (rule R89). -/
def isStatusCode (c : Byte) : Bool := decide (0xE0 ≤ c ∧ c ≤ 0xE6)

/-- The reading of a device-to-host frame of the device with address `dev` (rules R87 to R89). The machine never runs
it: it is the host's side of the wire, kept so that the encoder can be checked. That it refuses a status frame with a
data byte the device never sends is a DESIGN CHOICE (safe, log 16; rule R92). -/
def decodeReply (dev : Byte) (bs : List Byte) : Except DecodeError (Instr × List Byte) :=
  if bs.length < 4 then .error .tooShort
  else if byteAt bs 0 ≠ dev then .error .foreignAddress
  else if isStatusCode (byteAt bs 1) then
    match statusInstr (byteAt bs 1) (byteAt bs 2) with
    | none => .error (.reservedData (byteAt bs 2))
    | some i => checkedFrame (fun _ => i) 4 bs
  else
    match hostCmd (byteAt bs 1) with
    | none => .error (.unknownCommand (byteAt bs 1))
    | some cmd =>
      match neededLen cmd bs with
      | none => .error .incomplete
      | some len =>
        match pushInstr cmd (bs.take len) with
        | none => .error (.unknownCommand (byteAt bs 1))
        | some i => checkedFrame (fun _ => i) len bs

/-! ### The encoder -/

/-- The command byte of each frame type (rules R83 to R89). -/
def Instr.code : Instr → Byte
  | .poll _ => 0xD0
  | .read _ => 0xD1
  | .wrb _ _ => 0xDA
  | .wrw _ _ _ => 0xDB
  | .wrd _ _ _ _ _ => 0xDC
  | .wrc _ _ _ _ _ => 0xDD
  | .wra _ _ => 0xDE
  | .pushb _ _ => 0xDA
  | .pushw _ _ _ => 0xDB
  | .pushd _ _ _ _ _ => 0xDC
  | .pushc _ _ _ _ _ => 0xDD
  | .pusha _ _ => 0xDE
  | .ack => 0xE0
  | .badcrc _ => 0xE1
  | .nodata => 0xE2
  | .badflag => 0xE3
  | .noaddr => 0xE4
  | .wrrej => 0xE5
  | .hello => 0xE6

/-- The fields `addrLo addrHi` followed by the data bytes: formats W1, W2, W4 (rule R85). -/
def addrBody (addr : Word16) (data : List Byte) : List Byte := lo8 addr :: hi8 addr :: data

/-- The fields `addrLo addrHi lenLo lenHi` followed by the data bytes: format WA (rule R85). -/
def arrayBody (addr : Word16) (data : List Byte) : List Byte :=
  addrBody addr (lo8 (BitVec.ofNat 16 data.length) :: hi8 (BitVec.ofNat 16 data.length) :: data)

/-- The bytes between the command byte and the CRC (rules R83 to R89). -/
def Instr.body : Instr → List Byte
  | .poll flag => [flag]
  | .read addr => addrBody addr []
  | .wrb addr d0 => addrBody addr [d0]
  | .wrw addr d0 d1 => addrBody addr [d0, d1]
  | .wrd addr d0 d1 d2 d3 => addrBody addr [d0, d1, d2, d3]
  | .wrc addr d0 d1 d2 d3 => addrBody addr [d0, d1, d2, d3]
  | .wra addr data => arrayBody addr data
  | .pushb addr d0 => addrBody addr [d0]
  | .pushw addr d0 d1 => addrBody addr [d0, d1]
  | .pushd addr d0 d1 d2 d3 => addrBody addr [d0, d1, d2, d3]
  | .pushc addr d0 d1 d2 d3 => addrBody addr [d0, d1, d2, d3]
  | .pusha addr data => arrayBody addr data
  | .ack => [0x00]
  | .badcrc c => [c]
  | .nodata => [0x00]
  | .badflag => [0x00]
  | .noaddr => [0x00]
  | .wrrej => [0x00]
  | .hello => [0x00]

/-- The frame of an instruction sent to or by the device with address `dev`: the address, the command byte, the
body and the CRC of all of them (rules R80, R81). -/
def encode (dev : Byte) (i : Instr) : Frame := withCrc (dev :: i.code :: i.body)

/-! ### The opcode table's numbering -/

/-- The bytes of a table word: byte 0 is the command byte, frame index 1, and byte `k` stands at frame index `k + 1`
(the table's rows match on frame byte index 1). -/
def tableBytes (nbits w : Nat) : List Byte :=
  (List.range ((nbits + 7) / 8)).map fun k => BitVec.ofNat 8 (w / 256 ^ k)

/-- The length a frame of command byte `c` has before its CRC, with `len` in its length field: `FrameLen - 1` for a
command, 3 for every other code. -/
def tableBodyLen (c : Byte) (len : Word16) : Nat :=
  match hostCmd c with
  | none => 3
  | some cmd => frameLen cmd len - 1

/-- The frame a table word stands for, as it lies on the wire: the device address, which the table does not number,
then the word's bytes, then zeros up to the frame's length, then the CRC, which the table does not number either. -/
def tableFrame (dev : Byte) (nbits w : Nat) : Frame :=
  let bs := dev :: tableBytes nbits w
  let n := tableBodyLen (byteAt bs 1) (frameDataLen bs)
  withCrc ((List.range n).map (byteAt bs))

/-- The instruction a frame is: as the device receives it, and for a frame the device does not recognise, as the
host receives it (rule R93: nothing in a 0xDA to 0xDE frame tells the direction, a device reads a write). -/
def decodeEither (dev : Byte) (f : Frame) : Option Instr :=
  match decode dev f with
  | .ok (i, _) => some i
  | .error _ =>
    match decodeReply dev f with
    | .ok (i, _) => some i
    | .error _ => none

/-- The instruction the decoder reads from the word `w` of `nbits` bits, numbered as spec/opcode_table.json numbers
them (log 3). -/
def decodeTableWord (nbits w : Nat) : Option Instr :=
  decodeEither Config.default.devAddr (tableFrame Config.default.devAddr nbits w)

end Sys2Proof
end

