-- ==== Sys2Proof/Machine/State.lean ====
section
/-! DEFINITION. The state of the machine: the architectural state of 10_state.md rule R20, the configuration it runs
under (rules R6, R24, R34), and the environment it reads and writes (rules R40 to R46), all as plain data. -/

namespace Sys2Proof.Machine

/-- Why the machine stops for good. Raised only by `send` (Machine/Link.lean). Both are safe: the spec says that the
step never ends. -/
inductive Fault where
  /-- The flush inside `Send` never returns (rules R205, R240; U27 of 93_implementation_defined.md). -/
  | flushNeverReturns
  /-- The clock stops while `Send` waits for the turnaround delay (rule R240). -/
  | clockStopped
deriving DecidableEq, Repr

/-- Why a registration is refused (rules R215, R252; U10, U34 of 93_implementation_defined.md). -/
inductive RegisterError where
  /-- A registration after the first step (rule R252, decision D31). -/
  | late
  /-- The table already holds `TABLE_CAP` items. -/
  | tableFull
  /-- The address is not in 0 to 65535 (decision D4). -/
  | addressOutOfRange
  /-- An item with this address exists. -/
  | duplicateAddress
  /-- An Array capacity above 65535. -/
  | capacityTooLarge
  /-- An Array the host is to be able to write, and a receive buffer too small for its longest write (rules R6, R263). -/
  | bufferTooSmall
deriving DecidableEq, Repr

/-- Why the machine gives a system no meaning. All are safe: the spec gives such a system no run. -/
inductive Refusal where
  /-- The instruction has no meaning yet; raised only by an arm of `exec`. No arm does. -/
  | notModelled (mnemonic : String)
  /-- The configuration breaks a constraint of rule R6; raised only by `step`. -/
  | invalidConfiguration
  /-- A refused `RegisterItem`: "the model gives the resulting system no run" (rule R215); raised only by
  `registerItem`. -/
  | registrationRefused (reason : RegisterError)
deriving DecidableEq, Repr

/-- One item of the table (rule R24). Its payload bytes stand in `State.mem`. -/
structure Item where
  /-- `ADDR[i]`: configuration. -/
  addr : Word16
  /-- `KIND[i]`: configuration. -/
  kind : Kind
  /-- `CAP[i]`, in bytes: configuration. -/
  cap : Nat
  /-- `len[i]`, the current length in bytes (rule R25). -/
  len : Nat
  /-- `dirty[i]` (rule R26). -/
  dirty : Bool
deriving DecidableEq, Repr

/-- An event of the output trace (rule R46). -/
inductive TraceEvent where
  /-- `DirAssert`. -/
  | dirAssert
  /-- `Tx(f)`, with the clock reading at which `write_bytes` was called (rule R202). -/
  | tx (f : Frame) (time : Word32)
  /-- `Flushed`. -/
  | flushed
  /-- `DirDeassert`. -/
  | dirDeassert
  /-- `OnWrite(i)` (rule R36). -/
  | onWrite (i : Nat)
deriving DecidableEq, Repr

/-- What the environment makes of one `Send` (rules R42, R202, R205, R240). -/
inductive LinkChoice where
  /-- `write_bytes` is called `delay` ms after the earliest time the rules allow, and the flush takes `flush` ms. -/
  | completes (delay flush : Word32)
  /-- The clock stops: a turnaround wait never ends. -/
  | clockStops
  /-- `flush()` never returns; `write_bytes` is called `delay` ms after the earliest time. -/
  | flushHangs (delay : Word32)
deriving DecidableEq, Repr

/-- What the environment does next: the invocations and arrivals of rules R11, R40, R43, R45. -/
inductive Input where
  /-- The serial collaborator receives bytes (rule R40). -/
  | arrive (bytes : List Byte)
  /-- The millisecond clock advances (rule R43). -/
  | elapse (ms : Word32)
  /-- A poll invocation (rule R120). -/
  | poll
  /-- `RegisterItem(address, kind, capacity_if_array)` (rule R215). -/
  | register (address : Int) (kind : Kind) (capacity : Nat)
  /-- `SetValue(handle, value)` (rule R217). -/
  | setValue (handle : Nat) (value : AppValue)
  /-- `SetValueIfChanged(handle, value)` (rule R218). -/
  | setValueIfChanged (handle : Nat) (value : AppValue)
  /-- `GetValue(handle)` (rule R219). -/
  | getValue (handle : Nat)
  /-- `PushAllDirty()` (rule R221). -/
  | pushAllDirty
  /-- `SendGreeting()` (rule R222). -/
  | sendGreeting
deriving DecidableEq, Repr

/-- What the last local operation answered the application (rule R45). -/
inductive AppResult where
  /-- No local operation has answered yet. -/
  | none
  /-- The operation was done and returns nothing. -/
  | done
  /-- The operation was refused: nothing changed, nothing was emitted (U35 to U37). -/
  | refused
  /-- `RegisterItem` answered the handle. -/
  | handle (i : Nat)
  /-- `SetValueIfChanged` answered whether it changed the value. -/
  | changed (b : Bool)
  /-- `GetValue` answered the value's bytes. -/
  | value (v : List Byte)
deriving DecidableEq, Repr

/-- The payload store (20_memory.md, opening; rule R25): the bytes `payload[i][j]` as (address, byte) pairs, addresses
strictly rising, no byte equal to what an unlisted address reads as. -/
abbrev Memory := List Host.Cell

/-- What an unlisted address reads as: every payload byte is 0 after reset (rule R47, decision D32). -/
def unlistedByte : Byte := 0

/-- The canonical form of the payload store. -/
abbrev Memory.wf (m : Memory) : Prop :=
  m.Pairwise (fun a b => a.1 < b.1) ∧ ∀ c ∈ m, c.2 ≠ unlistedByte

/-- The whole machine: one engine instance and what it sees of its surroundings. -/
structure State where
  /-- The configuration (rules R6, R34); no step writes it. -/
  config : Config
  /-- The item table in index order, `N` its length (rules R24 to R26). -/
  items : List Item
  /-- The payload bytes of all items (rule R25). -/
  mem : Memory
  /-- `rx_buf[0 .. rx_len)`; `rx_len` is its length (rules R21, R22). -/
  rxBuf : List Byte
  /-- `last_rx_time` (rule R23). -/
  lastRxTime : Word32
  /-- `scan_cursor` (rule R29). -/
  scanCursor : Nat
  /-- `sweep_in_progress` (rule R30). -/
  sweepInProgress : Bool
  /-- `sweep_start` (rule R30). -/
  sweepStart : Nat
  /-- `dir`, the direction output (rule R33). -/
  dir : Bool
  /-- The output trace, first event first (rule R46). -/
  trace : List TraceEvent
  /-- Environment: `rx_fifo`, the bytes the serial collaborator holds, first arrived first (rule R40). -/
  rxFifo : List Byte
  /-- Environment: the running millisecond clock `now()` (rule R43). -/
  clock : Word32
  /-- Environment: what happens next, first event first (rules R11, R120; the model's own). -/
  inputs : List Input
  /-- Environment: what becomes of the coming `Send`s, next first (rules R202, R205; the model's own). -/
  link : List LinkChoice
  /-- What the last local operation answered (rule R45; the model's own). -/
  result : AppResult
  /-- The first step has been taken, so no registration may follow (rule R252; the model's own). -/
  started : Bool
deriving DecidableEq, Repr

/-! ### Named updates -/

def State.setItems (s : State) (items : List Item) : State := { s with items := items }
def State.setMem (s : State) (mem : Memory) : State := { s with mem := mem }
def State.setRxBuf (s : State) (bs : List Byte) : State := { s with rxBuf := bs }
def State.setLastRxTime (s : State) (t : Word32) : State := { s with lastRxTime := t }
def State.setScanCursor (s : State) (j : Nat) : State := { s with scanCursor := j }
def State.setSweepInProgress (s : State) (b : Bool) : State := { s with sweepInProgress := b }
def State.setSweepStart (s : State) (j : Nat) : State := { s with sweepStart := j }
def State.setDir (s : State) (b : Bool) : State := { s with dir := b }
def State.emit (s : State) (e : TraceEvent) : State := { s with trace := s.trace ++ [e] }
def State.setRxFifo (s : State) (bs : List Byte) : State := { s with rxFifo := bs }
def State.setClock (s : State) (t : Word32) : State := { s with clock := t }
def State.setInputs (s : State) (es : List Input) : State := { s with inputs := es }
def State.setLink (s : State) (cs : List LinkChoice) : State := { s with link := cs }
def State.setResult (s : State) (r : AppResult) : State := { s with result := r }
def State.setStarted (s : State) : State := { s with started := true }

/-! ### Reset -/

/-- The state right after reset under a configuration and an item layout (rules R47, R250): the layout is
configuration, supplied before the first step (rules R6, R252). The lengths and flags of `layout` are not used. -/
def State.resetWith (config : Config) (layout : List Item) : State :=
  { config := config
    items := layout.map fun it => { it with len := (klen it.kind).getD 0, dirty := false }
    mem := []
    rxBuf := []
    lastRxTime := 0
    scanCursor := 0
    sweepInProgress := false
    sweepStart := 0
    dir := false
    trace := []
    rxFifo := []
    clock := 0
    inputs := []
    link := []
    result := .none
    started := false }

/-- The machine after reset, under the default configuration and with no item registered yet. DESIGN CHOICE (unsafe,
logs 1 and 2): the configuration without a default, the empty table, and the environment's empty queue, clock
reading 0 and empty scripts are the model's; every other field is the spec's (rule R47). -/
def State.reset : State := State.resetWith Config.default []

end Sys2Proof.Machine
end

