-- ==== Sys2Proof/Machine/Flags.lean ====
section
/-! DEFINITION. The flags of this hardware: the `dirty` flag of each item (10_state.md rule R26), the scheduler's
sweep state (rules R29, R30), and the state of the receive machine, which is computed and not stored (rule R31). -/

namespace Sys2Proof.Machine

/-- `dirty[j]`; an index outside the table has no flag. -/
def dirtyAt (items : List Item) (j : Nat) : Bool :=
  match items[j]? with
  | none => false
  | some it => it.dirty

/-- `dirty[i] <- b`. -/
def setDirty (i : Nat) (b : Bool) (s : State) : State :=
  s.setItems (s.items.modify i fun it => { it with dirty := b })

/-- Every item's `dirty` set to true (rule R142). -/
def forceAllDirty (s : State) : State :=
  s.setItems (s.items.map fun it => { it with dirty := true })

/-- A fresh sweep begins at the cursor, unless one is in progress (rule R143, decision D19). -/
def beginSweep (s : State) : State :=
  if s.sweepInProgress then s else (s.setSweepStart s.scanCursor).setSweepInProgress true

/-- A sweep is complete: the next one starts one after the start of the one just ended (rules R146, R147, decision
D20). -/
def endSweep (s : State) : State :=
  (s.setScanCursor ((s.sweepStart + 1) % s.items.length)).setSweepInProgress false

/-- After the push of item `j`: the sweep continues at the next index, or is complete if that is its start (rules
R145, R146). -/
def advanceSweep (j : Nat) (s : State) : State :=
  if (j + 1) % s.items.length = s.sweepStart then endSweep s
  else s.setScanCursor ((j + 1) % s.items.length)

/-- The states of the receive state machine (rule R31). -/
inductive RxState where
  | idle
  | accumulating
  | dispatch
deriving DecidableEq, Repr

/-- The receive state between steps, a function of `rx_len` (rule R31); `dispatch` exists only inside a poll step. -/
def rxState (s : State) : RxState := if s.rxBuf.isEmpty then .idle else .accumulating

end Sys2Proof.Machine
end

