-- ==== Sys2Proof/Machine/Link.lean ====
section
/-! DEFINITION. The turnaround-delay and direction-control controller (46_link_timing.md): its one operation is
`send`. -/

namespace Sys2Proof.Machine

/-- The result of an operation of the machine. -/
abbrev Result := Host.Outcome State Fault Refusal

/-- Continue with `k` from the next state; a stop stays a stop. -/
def andThen (r : Result) (k : State → Result) : Result :=
  match r with
  | .next s => k s
  | .fault e => .fault e
  | .refused e => .refused e

/-- `elapsed(t1, t0) = (t1 - t0) mod 2^32` (00_scope.md rule R10). -/
def elapsed (t1 t0 : Word32) : Word32 := t1 - t0

/-- What the environment makes of the next `Send`. With none scripted it is the earliest the rules allow (rule R202,
decision D33) and the flush takes no time. -/
def linkChoice (s : State) : LinkChoice := s.link.headD (.completes 0 0)

/-- The delay a choice adds to the earliest transmit time (rule R202). -/
def choiceDelay : LinkChoice → Word32
  | .completes delay _ => delay
  | .clockStops => 0
  | .flushHangs delay => delay

/-- The turnaround wait applies: a delay is configured and has not yet passed since the last received byte (rule
R201). -/
def mustWait (s : State) : Bool :=
  decide (0 < s.config.turnMs ∧ elapsed s.clock s.lastRxTime < s.config.turnMs)

/-- Step 1 of `Send`: wait until `elapsed(clock, last_rx_time) >= TURN_MS`, that is until the clock reads
`last_rx_time + TURN_MS` (rule R201). A clock that stops never ends the wait (rule R240). -/
def turnaround (c : LinkChoice) (s : State) : Result :=
  if mustWait s then
    if c = .clockStops then .fault .clockStopped
    else .next (s.setClock (s.lastRxTime + s.config.turnMs))
  else .next s

/-- A clock reading at which `write_bytes` may be called (rule R202 (b)). -/
def txTimeOk (s : State) (t : Word32) : Bool :=
  decide (s.config.turnMs = 0 ∨ s.config.turnMs ≤ elapsed t s.lastRxTime)

/-- The time that passes before `write_bytes` is called: the environment's delay, if the reading it leads to meets
rule R202 (b), else none. -/
def latency (c : LinkChoice) (s : State) : State :=
  if txTimeOk s (s.clock + choiceDelay c) then s.setClock (s.clock + choiceDelay c) else s

/-- `assert_direction()` (rules R44, R203). -/
def assertDirection (s : State) : State := (s.setDir true).emit .dirAssert

/-- `write_bytes(f)` (rules R41, R202). -/
def writeFrame (f : Frame) (s : State) : State := s.emit (.tx f s.clock)

/-- `flush()`: returns when every byte has left the transmitter, or never (rules R42, R205). -/
def flush (c : LinkChoice) (s : State) : Result :=
  match c with
  | .completes _ d => .next ((s.setClock (s.clock + d)).emit .flushed)
  | .clockStops => .next (s.emit .flushed)
  | .flushHangs _ => .fault .flushNeverReturns

/-- `deassert_direction()` (rules R44, R203). -/
def deassertDirection (s : State) : State := (s.setDir false).emit .dirDeassert

/-- Step 2 of `Send`: the write, inside the direction signal if one is configured (rules R203, R204). -/
def writeOut (c : LinkChoice) (f : Frame) (s : State) : Result :=
  if s.config.flowCtrl then
    andThen (flush c (writeFrame f (assertDirection s))) fun s => .next (deassertDirection s)
  else .next (writeFrame f s)

/-- `Send(f)` (rule R200): turnaround, then write. It is the operation behind `MemWrite(TX, f)`. -/
def send (f : Frame) (s : State) : Result :=
  andThen (turnaround (linkChoice s) (s.setLink s.link.tail)) fun s' =>
    writeOut (linkChoice s) f (latency (linkChoice s) s')

end Sys2Proof.Machine
end

