-- ==== Sys2Proof/Machine/Ops.lean ====
section
/-! DEFINITION. The named operations the meanings share: the payload store (20_memory.md), the item table (rules R25,
R28), the frame encoder's two constructors (45_tx_frames.md rules R175 to R181), and taking an exceptional outcome
(60_exceptions.md rules R230 to R235). Nothing returns from an outcome (rule R240): it ends the dispatch. -/

namespace Sys2Proof.Machine

/-! ### The payload store -/

/-- The byte at an address of the payload store. -/
def Memory.read : Memory → Nat → Byte
  | [], _ => unlistedByte
  | (k, v) :: m, a => if k = a then v else Memory.read m a

/-- Store a byte, keeping the canonical form: storing what an unlisted address reads as removes the entry. -/
def Memory.write : Memory → Nat → Byte → Memory
  | [], a, b => if b = unlistedByte then [] else [(a, b)]
  | (k, v) :: m, a, b =>
    if a < k then (if b = unlistedByte then (k, v) :: m else (a, b) :: (k, v) :: m)
    else if a = k then (if b = unlistedByte then m else (a, b) :: m)
    else (k, v) :: Memory.write m a b

/-- The `n` bytes from an address on. -/
def Memory.readBytes (m : Memory) (a n : Nat) : List Byte :=
  (List.range n).map fun j => Memory.read m (a + j)

/-- Store a byte sequence from an address on. -/
def Memory.writeBytes : Memory → Nat → List Byte → Memory
  | m, _, [] => m
  | m, a, b :: bs => Memory.writeBytes (Memory.write m a b) (a + 1) bs

/-- The store's address of `payload[i][0]`; `payload[i][j]` stands at `payloadBase i + j` (a capacity is at most 65535,
rule R6, so two items never overlap, rule R63). -/
def payloadBase (i : Nat) : Nat := 65536 * i

/-! ### The item table -/

/-- `Lookup(a)`: the least index of an item with this address (rule R28). -/
def lookup (a : Word16) (items : List Item) : Option Nat :=
  items.findIdx? fun it => it.addr == a

/-- `x[i]`, the value of item `i`: `payload[i][0 .. len[i])` (rules R10, R25); empty outside the table. -/
def valueOf (s : State) (i : Nat) : List Byte :=
  match s.items[i]? with
  | none => []
  | some it => Memory.readBytes s.mem (payloadBase i) it.len

/-- `x[i] <- v`: `payload[i][0 .. |v|) <- v; len[i] <- |v|` (rule R10). -/
def storeValue (i : Nat) (v : List Byte) (s : State) : State :=
  (s.setMem (Memory.writeBytes s.mem (payloadBase i) v)).setItems
    (s.items.modify i fun it => { it with len := v.length })

/-! ### The frame encoder -/

/-- Encode an instruction with the engine's own address (rule R177) and hand the frame to the link controller (rule
R175). -/
def transmit (i : Instr) (s : State) : Result := send (encode s.config.devAddr i) s

/-- The push frame of item `i`: its command byte follows the kind (rules R179, R182 to R186). -/
def pushFrame (i : Nat) (it : Item) (m : Memory) : Instr :=
  let d := fun j => Memory.read m (payloadBase i + j)
  match it.kind with
  | .byte => .pushb it.addr (d 0)
  | .word => .pushw it.addr (d 0) (d 1)
  | .dword => .pushd it.addr (d 0) (d 1) (d 2) (d 3)
  | .float => .pushd it.addr (d 0) (d 1) (d 2) (d 3)
  | .hsb => .pushc it.addr (d 0) (d 1) (d 2) (d 3)
  | .rgb => .pushc it.addr (d 0) (d 1) (d 2) (d 3)
  | .rgbw => .pushc it.addr (d 0) (d 1) (d 2) (d 3)
  | .array => .pusha it.addr (Memory.readBytes m (payloadBase i) it.len)

/-- `Push(i)` (rules R180, R181): sample the value, clear `dirty[i]`, send. -/
def pushItem (i : Nat) (s : State) : Result :=
  match s.items[i]? with
  | none => .next s
  | some it => transmit (pushFrame i it s.mem) (setDirty i false s)

/-- A push frame sent by itself, as an instruction of the encoder: the item it reports is the one with its address,
whose `dirty` the push clears (rule R181), and the frame is sent (rule R175). -/
def report (addr : Word16) (i : Instr) (s : State) : Result :=
  match lookup addr s.items with
  | none => transmit i s
  | some k => transmit i (setDirty k false s)

/-! ### Exceptional outcomes -/

/-- The exceptional outcomes that have a response frame (rules R231 to R235). -/
inductive Exceptional where
  /-- `CrcMismatch(c)`, code 0xE1 (rule R231). -/
  | crcMismatch (c : Byte)
  /-- `BadPollFlag`, code 0xE3 (rule R232). -/
  | badPollFlag
  /-- `AddressNotFound`, code 0xE4 (rule R233). -/
  | addressNotFound
  /-- `WriteRejected`, code 0xE5 (rule R234). -/
  | writeRejected
  /-- `NoNewData`, code 0xE2 (rule R235). -/
  | noNewData
deriving DecidableEq, Repr

/-- The status frame an outcome is reported by (rule R89). -/
def responseOf : Exceptional → Instr
  | .crcMismatch c => .badcrc c
  | .badPollFlag => .badflag
  | .addressNotFound => .noaddr
  | .writeRejected => .wrrej
  | .noNewData => .nodata

/-- The outcome's response is enabled (the "gated by" column of rule R89). -/
def responseEnabled (config : Config) : Exceptional → Bool
  | .crcMismatch _ => config.enCrcResp
  | .badPollFlag => config.enFlagResp
  | .addressNotFound => true
  | .writeRejected => true
  | .noNewData => true

/-- `raise X` (rules R10, R230): send the response frame the outcome has, or none. No state is saved and no mode
switched (rule R239). -/
def raise (x : Exceptional) (s : State) : Result :=
  if responseEnabled s.config x then transmit (responseOf x) s else .next s

end Sys2Proof.Machine
end

