-- ==== Sys2Proof/Machine/Poll.lean ====
section
/-! DEFINITION. The meanings of the poll command with its round-robin scheduler (42_poll_scheduler.md) and of the
read command (43_read.md). -/

namespace Sys2Proof.Machine

/-- The walk of the scan step (rule R144): from index `j` on, wrapping, the first dirty item, until the walk is back
at `start`. `fuel` bounds the walk by the number of items, which is as far as it goes when `start` is an index of
the table (rule R35 (c)). -/
def scanFrom (items : List Item) (start : Nat) : Nat → Nat → Option Nat
  | 0, _ => none
  | fuel + 1, j =>
    if dirtyAt items j then some j
    else if (j + 1) % items.length = start then none
    else scanFrom items start fuel ((j + 1) % items.length)

/-- The index the scan finds in a state whose sweep has begun. -/
def scanTarget (s : State) : Option Nat :=
  scanFrom s.items s.sweepStart s.items.length s.scanCursor

/-- `Scan()` (rules R143 to R148). -/
def scan (s : State) : Result :=
  if s.items.isEmpty then raise .noNewData s
  else
    match scanTarget (beginSweep s) with
    | some j => andThen (pushItem j (beginSweep s)) fun s => .next (advanceSweep j s)
    | none => andThen (raise .noNewData (beginSweep s)) fun s => .next (endSweep s)

/-- `POLL` (rules R140 to R142). -/
def execPoll (flag : Byte) (s : State) : Result :=
  if flag = 0x01 then scan (forceAllDirty s)
  else if flag = 0x00 then scan s
  else raise .badPollFlag s

/-- `READ` (rules R155, R156). -/
def execRead (addr : Word16) (s : State) : Result :=
  match lookup addr s.items with
  | none => raise .addressNotFound s
  | some i => pushItem i s

end Sys2Proof.Machine
end

