-- ==== Sys2Proof/Machine/Push.lean ====
section
/-! DEFINITION. The meanings of the five push frames (45_tx_frames.md rules R180 to R186): the frame is sent and the
item it reports is no longer dirty. `Push(i)` itself is `pushItem` (Machine/Ops.lean), which takes the operands
from the item. -/

namespace Sys2Proof.Machine

/-- `PUSHB` (rule R182). -/
def execPushb (addr : Word16) (d0 : Byte) (s : State) : Result := report addr (.pushb addr d0) s

/-- `PUSHW` (rule R183). -/
def execPushw (addr : Word16) (d0 d1 : Byte) (s : State) : Result := report addr (.pushw addr d0 d1) s

/-- `PUSHD` (rule R184). -/
def execPushd (addr : Word16) (d0 d1 d2 d3 : Byte) (s : State) : Result :=
  report addr (.pushd addr d0 d1 d2 d3) s

/-- `PUSHC` (rule R185). -/
def execPushc (addr : Word16) (d0 d1 d2 d3 : Byte) (s : State) : Result :=
  report addr (.pushc addr d0 d1 d2 d3) s

/-- `PUSHA` (rule R186). -/
def execPusha (addr : Word16) (data : List Byte) (s : State) : Result := report addr (.pusha addr data) s

end Sys2Proof.Machine
end

