-- ==== Sys2Proof/Machine/Status.lean ====
section
/-! DEFINITION. The meanings of the seven status frames (45_tx_frames.md rules R187 to R193): each builds its frame
and sends it, under the enable rule R89 gives it. -/

namespace Sys2Proof.Machine

/-- `ACK` (rule R187). -/
def execAck (s : State) : Result := transmit .ack s

/-- `BADCRC` (rules R188, R231): the response of `CrcMismatch(c)`, gated by `EN_CRC_RESP`. -/
def execBadcrc (c : Byte) (s : State) : Result := raise (.crcMismatch c) s

/-- `NODATA` (rules R189, R235): the response of `NoNewData`. -/
def execNodata (s : State) : Result := raise .noNewData s

/-- `BADFLAG` (rules R190, R232): the response of `BadPollFlag`, gated by `EN_FLAG_RESP`. -/
def execBadflag (s : State) : Result := raise .badPollFlag s

/-- `NOADDR` (rules R191, R233): the response of `AddressNotFound`. -/
def execNoaddr (s : State) : Result := raise .addressNotFound s

/-- `WRREJ` (rules R192, R234): the response of `WriteRejected`. -/
def execWrrej (s : State) : Result := raise .writeRejected s

/-- `HELLO` (rules R193, R222): the greeting, sent only in full-duplex mode. -/
def execHello (s : State) : Result :=
  if s.config.fullDuplex then transmit .hello s else .next s

end Sys2Proof.Machine
end

