-- ==== Sys2Proof/Machine/Write.lean ====
section
/-! DEFINITION. The meanings of the five write commands (44_write.md rules R160 to R170). -/

namespace Sys2Proof.Machine

/-- The store fits the item: the command is accepted by its kind and, for 0xDE, the data by its capacity (rules R160,
R167). -/
def storeFits (cmd : WriteCmd) (data : List Byte) (it : Item) : Bool :=
  accepts cmd it.kind && (cmd != .wra || decide (data.length ≤ it.cap))

/-- `ExecWrite` (rule R160): address, then kind, then length (rule R170 (a)); then the store, `OnWrite`, `ACK` in that
order (rule R166). `dirty` and the scheduler are not touched. -/
def writeItem (cmd : WriteCmd) (addr : Word16) (data : List Byte) (s : State) : Result :=
  match lookup addr s.items with
  | none => raise .addressNotFound s
  | some i =>
    match s.items[i]? with
    | none => raise .addressNotFound s
    | some it =>
      if storeFits cmd data it then transmit .ack ((storeValue i data s).emit (.onWrite i))
      else raise .writeRejected s

/-- `WRB` (rule R161). -/
def execWrb (addr : Word16) (d0 : Byte) (s : State) : Result := writeItem .wrb addr [d0] s

/-- `WRW` (rule R162). -/
def execWrw (addr : Word16) (d0 d1 : Byte) (s : State) : Result := writeItem .wrw addr [d0, d1] s

/-- `WRD` (rule R163). -/
def execWrd (addr : Word16) (d0 d1 d2 d3 : Byte) (s : State) : Result :=
  writeItem .wrd addr [d0, d1, d2, d3] s

/-- `WRC` (rule R164). -/
def execWrc (addr : Word16) (d0 d1 d2 d3 : Byte) (s : State) : Result :=
  writeItem .wrc addr [d0, d1, d2, d3] s

/-- `WRA` (rule R165). -/
def execWra (addr : Word16) (data : List Byte) (s : State) : Result := writeItem .wra addr data s

end Sys2Proof.Machine
end

