-- ==== Sys2Proof/Machine/Dispatch.lean ====
section
/-! DEFINITION. `exec`: one arm per instruction, each one direct call of its meaning (41_rx_framer.md rule R131 for
the commands, 45_tx_frames.md rule R175 for the frames the device sends). -/

namespace Sys2Proof.Machine

def exec (i : Instr) (s : State) : Host.Outcome State Fault Refusal :=
  match i with
  | .poll flag => Sys2Proof.Machine.execPoll flag s
  | .read addr => Sys2Proof.Machine.execRead addr s
  | .wrb addr d0 => Sys2Proof.Machine.execWrb addr d0 s
  | .wrw addr d0 d1 => Sys2Proof.Machine.execWrw addr d0 d1 s
  | .wrd addr d0 d1 d2 d3 => Sys2Proof.Machine.execWrd addr d0 d1 d2 d3 s
  | .wrc addr d0 d1 d2 d3 => Sys2Proof.Machine.execWrc addr d0 d1 d2 d3 s
  | .wra addr data => Sys2Proof.Machine.execWra addr data s
  | .pushb addr d0 => Sys2Proof.Machine.execPushb addr d0 s
  | .pushw addr d0 d1 => Sys2Proof.Machine.execPushw addr d0 d1 s
  | .pushd addr d0 d1 d2 d3 => Sys2Proof.Machine.execPushd addr d0 d1 d2 d3 s
  | .pushc addr d0 d1 d2 d3 => Sys2Proof.Machine.execPushc addr d0 d1 d2 d3 s
  | .pusha addr data => Sys2Proof.Machine.execPusha addr data s
  | .ack => Sys2Proof.Machine.execAck s
  | .badcrc c => Sys2Proof.Machine.execBadcrc c s
  | .nodata => Sys2Proof.Machine.execNodata s
  | .badflag => Sys2Proof.Machine.execBadflag s
  | .noaddr => Sys2Proof.Machine.execNoaddr s
  | .wrrej => Sys2Proof.Machine.execWrrej s
  | .hello => Sys2Proof.Machine.execHello s

end Sys2Proof.Machine
end

