-- ==== Sys2Proof/Machine/Framer.lean ====
section
/-! DEFINITION. The poll step: drain, stale-buffer timeout, recognition loop, dispatch (41_rx_framer.md rules R120 to
R132). -/

namespace Sys2Proof.Machine

/-- How many bytes a drain moves (rule R121). -/
def drainCount (s : State) : Nat := min s.rxFifo.length (s.config.rxCap - s.rxBuf.length)

/-- `Drain(now)` (rule R121, decision D7): the time stamp moves only if a byte did. -/
def drain (s : State) : State :=
  let moved := (s.setRxBuf (s.rxBuf ++ s.rxFifo.take (drainCount s))).setRxFifo (s.rxFifo.drop (drainCount s))
  if 0 < drainCount s then moved.setLastRxTime s.clock else moved

/-- `StaleCheck(now)` (rule R122): the comparison is strict. -/
def staleCheck (s : State) : State :=
  if s.rxBuf ≠ [] ∧ s.config.staleMs < elapsed s.clock s.lastRxTime then s.setRxBuf [] else s

/-- What the recognition loop ends in. -/
inductive Recognition where
  /-- Fewer bytes than a decision needs (rules R125, R127, R128). -/
  | wait
  /-- A complete frame with a wrong CRC; `computed` is the right one (rule R130). -/
  | badCrc (computed : Byte)
  /-- A complete frame with a valid CRC (rule R131). -/
  | frame (i : Instr)
deriving DecidableEq, Repr

/-- `Recognise()` (rule R123): what it ends in and the buffer it leaves. A byte that cannot begin a frame, or a frame
start with an unrecognised command, is dropped and the loop re-enters at its top (rules R124, R132). -/
def recognise (dev : Byte) : List Byte → Recognition × List Byte
  | [] => (.wait, [])
  | b :: bs =>
    match decode dev (b :: bs) with
    | .ok (i, _) => (.frame i, b :: bs)
    | .error .foreignAddress => recognise dev bs
    | .error (.unknownCommand _) => recognise dev bs
    | .error (.crcMismatch c) => (.badCrc c, b :: bs)
    | .error .tooShort => (.wait, b :: bs)
    | .error .incomplete => (.wait, b :: bs)
    | .error (.reservedData _) => (.wait, b :: bs)

/-- The whole buffer is cleared (rules R130, R131). -/
def clearBuffer (s : State) : Result := .next (s.setRxBuf [])

/-- The end of the recognition loop: wait, `CrcFail` (rule R130), or dispatch and clear (rule R131). -/
def settle (r : Recognition) (s : State) : Result :=
  match r with
  | .wait => .next s
  | .badCrc c => andThen (raise (.crcMismatch c) s) clearBuffer
  | .frame i => andThen (exec i s) clearBuffer

/-- The state the recognition loop ends in, before anything is dispatched: drain, stale check and drops are done. -/
def received (s : State) : State :=
  let s := staleCheck (drain s)
  s.setRxBuf (recognise s.config.devAddr s.rxBuf).2

/-- What the recognition loop of this poll step ends in. -/
def recognised (s : State) : Recognition :=
  let s := staleCheck (drain s)
  (recognise s.config.devAddr s.rxBuf).1

/-- `Poll(now)` with `now` the clock's reading (rule R120). -/
def pollStep (s : State) : Result := settle (recognised s) (received s)

end Sys2Proof.Machine
end

