-- ==== Sys2Proof/Machine/Local.lean ====
section
/-! DEFINITION. The local operations of the application port (47_local_ops.md rules R216 to R222). A refused operation
changes nothing but the answer it gives. -/

namespace Sys2Proof.Machine

/-- The length requirement of a local write (rule R217). -/
def valueFits (it : Item) (v : List Byte) : Bool :=
  match klen it.kind with
  | some n => decide (v.length = n)
  | none => decide (v.length ≤ it.cap)

/-- The store of a local write: value, `dirty`, `OnWrite` in that order (rule R217). -/
def writeLocal (h : Nat) (v : List Byte) (s : State) : State :=
  (setDirty h true (storeValue h v s)).emit (.onWrite h)

/-- A refused operation (rules R216, R217, R220). -/
def refuse (s : State) : Result := .next (s.setResult .refused)

/-- `SetValue(h, v)` (rule R217). -/
def setValue (h : Nat) (value : AppValue) (s : State) : Result :=
  match s.items[h]? with
  | none => refuse s
  | some it =>
    match appBytes it.kind value with
    | none => refuse s
    | some v => if valueFits it v then .next ((writeLocal h v s).setResult .done) else refuse s

/-- `SetValueIfChanged(h, v)` (rule R218): compare and store in one step; a value of the wrong length is refused and
answered false. -/
def setValueIfChanged (h : Nat) (value : AppValue) (s : State) : Result :=
  match s.items[h]? with
  | none => refuse s
  | some it =>
    match appBytes it.kind value with
    | none => refuse s
    | some v =>
      if valueFits it v then
        if v = valueOf s h then .next (s.setResult (.changed false))
        else .next ((writeLocal h v s).setResult (.changed true))
      else .next (s.setResult (.changed false))

/-- `GetValue(h)` (rule R219). -/
def getValue (h : Nat) (s : State) : Result :=
  match s.items[h]? with
  | none => refuse s
  | some _ => .next (s.setResult (.value (valueOf s h)))

/-- The pushes of `PushAllDirty`: every dirty item among `is`, in order (rule R221). -/
def pushEach : List Nat → State → Result
  | [], s => .next s
  | i :: is, s => if dirtyAt s.items i then andThen (pushItem i s) fun s => pushEach is s else pushEach is s

/-- `PushAllDirty()` (rule R221): the dirty items in index order, or `NODATA` if there is none. -/
def pushAllDirty (s : State) : Result :=
  if s.config.fullDuplex then
    andThen
      (if s.items.any (fun it => it.dirty) then pushEach (List.range s.items.length) s else raise .noNewData s)
      fun s => .next (s.setResult .done)
  else refuse s

/-- `SendGreeting()` (rule R222). -/
def sendGreeting (s : State) : Result :=
  if s.config.fullDuplex then andThen (transmit .hello s) fun s => .next (s.setResult .done) else refuse s

end Sys2Proof.Machine
end

