-- ==== Sys2Proof/Machine/Setup.lean ====
section
/-! DEFINITION. Configuration and registration: what a valid configuration is (00_scope.md rule R6) and `RegisterItem`
(47_local_ops.md rule R215, 70_reset_and_hazards.md rule R252). -/

namespace Sys2Proof.Machine

/-- The capacity of an item fits its kind and the length field (rule R6). -/
abbrev itemConfigOk (it : Item) : Prop :=
  it.cap ≤ 65535 ∧ (klen it.kind = none ∨ klen it.kind = some it.cap)

/-- The receive buffer holds the longest write of an Array the host is to be able to write: `RX_CAP > 7 + CAP[i]` (rules
R6, R263). -/
abbrev arrayReceivable (config : Config) (kind : Kind) (addr : Word16) (cap : Nat) : Prop :=
  kind = .array → addr ∈ config.hostArrays → 7 + cap < config.rxCap

/-- The constraints of rule R6 on a configuration and its item table. -/
abbrev configOk (config : Config) (items : List Item) : Prop :=
  items.length ≤ config.tableCap ∧ items.Pairwise (fun a b => a.addr ≠ b.addr) ∧
    (∀ it ∈ items, itemConfigOk it) ∧ 10 ≤ config.rxCap ∧
    ∀ it ∈ items, arrayReceivable config it.kind it.addr it.cap

/-- What, if anything, refuses a registration (rules R215, R252; the last one by rule R6's bound on `RX_CAP`). -/
def registerProblem (address : Int) (kind : Kind) (capacity : Nat) (s : State) : Option RegisterError :=
  if s.started then some .late
  else if s.config.tableCap ≤ s.items.length then some .tableFull
  else if address < 0 ∨ 65535 < address then some .addressOutOfRange
  else if s.items.any (fun it => it.addr == BitVec.ofInt 16 address) then some .duplicateAddress
  else if kind = .array ∧ 65535 < capacity then some .capacityTooLarge
  else if ¬ arrayReceivable s.config kind (BitVec.ofInt 16 address) capacity then some .bufferTooSmall
  else none

/-- The item a registration appends (rule R215). -/
def newItem (address : Int) (kind : Kind) (capacity : Nat) : Item :=
  { addr := BitVec.ofInt 16 address
    kind := kind
    cap := (klen kind).getD capacity
    len := (klen kind).getD 0
    dirty := false }

/-- `RegisterItem(address, kind, capacity_if_array)` (rule R215): the handle is the item's index; its payload bytes
are set to 0. A refused registration gives the system no run. -/
def registerItem (address : Int) (kind : Kind) (capacity : Nat) (s : State) : Result :=
  match registerProblem address kind capacity s with
  | some e => .refused (.registrationRefused e)
  | none =>
    .next (((s.setItems (s.items ++ [newItem address kind capacity])).setMem
      (Memory.writeBytes s.mem (payloadBase s.items.length)
        (List.replicate (newItem address kind capacity).cap 0))).setResult (.handle s.items.length))

end Sys2Proof.Machine
end

