-- ==== Sys2Proof/Machine/Engine.lean ====
section
/-! DEFINITION. One step of the machine: the next event of the environment's script, run whole (00_scope.md rule R11,
20_memory.md rule R69). -/

namespace Sys2Proof.Machine

/-- One event (rules R11, R40, R43, R120, R215 to R222). A poll invocation and every local operation but a registration
are steps of the running engine (rule R252). -/
def runInput (e : Input) (s : State) : Result :=
  match e with
  | .arrive bytes => .next (s.setRxFifo (s.rxFifo ++ bytes))
  | .elapse ms => .next (s.setClock (s.clock + ms))
  | .poll => pollStep s.setStarted
  | .register address kind capacity => registerItem address kind capacity s
  | .setValue h v => setValue h v s.setStarted
  | .setValueIfChanged h v => setValueIfChanged h v s.setStarted
  | .getValue h => getValue h s.setStarted
  | .pushAllDirty => pushAllDirty s.setStarted
  | .sendGreeting => sendGreeting s.setStarted

/-- The event of the next step: the head of the script. With nothing scripted it is a poll invocation: the model
assumes only that poll steps keep being invoked (decision D3; log 4). -/
def nextInput (s : State) : Input := s.inputs.headD .poll

/-- One step: a configuration that breaks a constraint is refused (rule R6); else the next event is taken off the
script and run. -/
def engineStep (s : State) : Result :=
  if configOk s.config s.items then runInput (nextInput s) (s.setInputs s.inputs.tail)
  else .refused .invalidConfiguration

end Sys2Proof.Machine
end

