-- ==== Sys2Proof/Machine/Fetch.lean ====
section
/-! DEFINITION. How an instruction is put where the next step runs it (log 3). A host-to-device frame is put into the
receive queue. A device-to-host frame is never received: the step sends it, so its cause is staged as
45_tx_frames.md rule R194 names it. -/

namespace Sys2Proof.Machine

/-- An empty buffer and script, and a receive queue that holds one frame. -/
def stageFrame (f : Frame) (s : State) : State :=
  { s with
    rxBuf := []
    rxFifo := f
    inputs := []
    config := { s.config with rxCap := max s.config.rxCap f.length } }

/-- A table of one item with this value, under capacities that allow it (rule R6). -/
def stageItem (addr : Word16) (kind : Kind) (v : List Byte) (dirty : Bool) (s : State) : State :=
  { s with
    items := [{ addr := addr, kind := kind, cap := v.length, len := v.length, dirty := dirty }]
    mem := Memory.writeBytes [] (payloadBase 0) v
    scanCursor := 0
    sweepInProgress := false
    sweepStart := 0
    config := { s.config with
      tableCap := max s.config.tableCap 1
      rxCap := max s.config.rxCap (8 + v.length) } }

/-- A poll of a table whose one item is dirty, the cause of a push frame (rule R194). -/
def stagePush (addr : Word16) (kind : Kind) (v : List Byte) (s : State) : State :=
  stageFrame (encode s.config.devAddr (.poll 0)) (stageItem addr kind v true s)

/-- A poll flag whose frame `DEV_ADDR D0 flag` has this CRC. -/
def flagWithCrc (dev c : Byte) : Byte :=
  (((List.range 256).map (BitVec.ofNat 8)).find? fun f => crc8 [dev, 0xD0, f] == c).getD 0

/-- The surroundings in which the next step runs the instruction. -/
def stageInstr (i : Instr) (s : State) : State :=
  match i with
  | .pushb addr d0 => stagePush addr .byte [d0] s
  | .pushw addr d0 d1 => stagePush addr .word [d0, d1] s
  | .pushd addr d0 d1 d2 d3 => stagePush addr .dword [d0, d1, d2, d3] s
  | .pushc addr d0 d1 d2 d3 => stagePush addr .rgb [d0, d1, d2, d3] s
  | .pusha addr data => stagePush addr .array data s
  | .ack => stageFrame (encode s.config.devAddr (.wrb 0 0)) (stageItem 0 .byte [0] false s)
  | .wrrej => stageFrame (encode s.config.devAddr (.wrw 0 0 0)) (stageItem 0 .byte [0] false s)
  | .nodata => stageFrame (encode s.config.devAddr (.poll 0)) (stageItem 0 .byte [0] false s)
  | .noaddr => stageFrame (encode s.config.devAddr (.read 1)) (stageItem 0 .byte [0] false s)
  | .badflag =>
    stageFrame (encode s.config.devAddr (.poll 2)) { s with config := { s.config with enFlagResp := true } }
  | .badcrc c =>
    stageFrame [s.config.devAddr, 0xD0, flagWithCrc s.config.devAddr c, c ^^^ 1]
      { s with config := { s.config with enCrcResp := true } }
  | .hello => { s with inputs := [.sendGreeting], config := { s.config with fullDuplex := true } }
  | .poll flag => stageFrame (encode s.config.devAddr (.poll flag)) s
  | .read addr => stageFrame (encode s.config.devAddr (.read addr)) s
  | .wrb addr d0 => stageFrame (encode s.config.devAddr (.wrb addr d0)) s
  | .wrw addr d0 d1 => stageFrame (encode s.config.devAddr (.wrw addr d0 d1)) s
  | .wrd addr d0 d1 d2 d3 => stageFrame (encode s.config.devAddr (.wrd addr d0 d1 d2 d3)) s
  | .wrc addr d0 d1 d2 d3 => stageFrame (encode s.config.devAddr (.wrc addr d0 d1 d2 d3)) s
  | .wra addr data => stageFrame (encode s.config.devAddr (.wra addr data)) s

/-- The table word staged for the next step; a word that is no frame in either direction is put into the receive
queue as it stands. -/
def stageWord (nbits w : Nat) (s : State) : State :=
  match decodeEither s.config.devAddr (tableFrame s.config.devAddr nbits w) with
  | some i => stageInstr i s
  | none => stageFrame (tableFrame s.config.devAddr nbits w) s

end Sys2Proof.Machine
end

