-- ==== Sys2Proof/Machine/Step.lean ====
section
/-! DEFINITION. The step function and the place the next instruction is fetched from. -/

namespace Sys2Proof.Machine

/-- One step of the machine (00_scope.md rule R11). -/
def step (s : State) : Host.Outcome State Fault Refusal := engineStep s

/-- The table word `w` of `nbits` bits placed where the next step runs it (log 3). -/
def State.withFetchWord (s : State) (nbits w : Nat) : State := stageWord nbits w s

end Sys2Proof.Machine
end

