-- ==== Sys2Proof/Safety.lean ====
section
/-! DEFINITION. The terms claims use: the invariants of a safe run (10_state.md rules R30, R35), when a `Send` ends
(46_link_timing.md rule R205), what it adds to the trace, and the frames a trace holds. -/

namespace Sys2Proof.Machine

/-! ### Sending -/

/-- `flush()` never returns under this choice. -/
def flushHangs : LinkChoice → Bool
  | .completes _ _ => false
  | .clockStops => false
  | .flushHangs _ => true

/-- Why the next `Send` never ends, if it does not (rule R240). -/
def sendStop (s : State) : Option Fault :=
  if mustWait s && linkChoice s == .clockStops then some .clockStopped
  else if s.config.flowCtrl && flushHangs (linkChoice s) then some .flushNeverReturns
  else none

/-- The next `Send` ends: its wait and its flush return. -/
abbrev linkLive (s : State) : Prop := sendStop s = none

/-- What one `Send` of `f` at time `time` adds to the trace (rules R200, R203, R204). -/
def linkEvents (config : Config) (f : Frame) (time : Word32) : List TraceEvent :=
  if config.flowCtrl then [.dirAssert, .tx f time, .flushed, .dirDeassert] else [.tx f time]

/-- `s` after one `Send` of `f` that called `write_bytes` at `time` and ended at `clk`: the trace gained the send, the
direction line is at rest, time has passed, and nothing else changed (rules R200, R205). -/
def afterSend (f : Frame) (time clk : Word32) (s : State) : State :=
  { s with
    trace := s.trace ++ linkEvents s.config f time
    dir := if s.config.flowCtrl then false else s.dir
    clock := clk
    link := s.link.tail }

/-- The frame of a trace event, if it sends one. -/
def eventFrame : TraceEvent → Option Frame
  | .tx f _ => some f
  | .dirAssert => none
  | .flushed => none
  | .dirDeassert => none
  | .onWrite _ => none

/-- The frames a trace holds, in the order they were sent. -/
def framesOf (trace : List TraceEvent) : List Frame := trace.filterMap eventFrame

/-! ### Invariants -/

/-- The length of an item fits its capacity and its kind (rule R35 (b)). -/
abbrev itemLenOk (it : Item) : Prop :=
  it.len ≤ it.cap ∧ (klen it.kind = none ∨ klen it.kind = some it.len)

/-- The scheduler's registers are indices of the table (rule R35 (c)), and an open sweep has left its start (rule
R30). -/
abbrev schedulerOk (s : State) : Prop :=
  s.scanCursor < max s.items.length 1 ∧ s.sweepStart < max s.items.length 1 ∧
    (s.sweepInProgress = true → s.scanCursor ≠ s.sweepStart)

/-- A listed byte of the payload store lies inside an item's payload (rule R25). -/
abbrev payloadInside (items : List Item) (m : Memory) : Prop :=
  ∀ c ∈ m, ∃ it ∈ items[c.1 / 65536]?, c.1 % 65536 < it.cap

/-- The invariant of every run (rules R25, R30, R35): valid configuration, bounded receive buffer, item lengths,
scheduler indices, direction line at rest, and the payload store canonical and inside the table. -/
abbrev State.Inv (s : State) : Prop :=
  configOk s.config s.items ∧ s.rxBuf.length ≤ s.config.rxCap ∧ (∀ it ∈ s.items, itemLenOk it) ∧
    schedulerOk s ∧ s.dir = false ∧ Memory.wf s.mem ∧ payloadInside s.items s.mem

/-- A step is safe when it neither stops nor is refused. -/
def safeStep (s : State) : Bool :=
  match step s with
  | .next _ => true
  | .fault _ => false
  | .refused _ => false

end Sys2Proof.Machine
end

