-- ==== Sys2Proof/Certificates/Slice0/Obligations.lean ====
section
/-! DEFINITION. The statements for the provers, after the vocabulary they share. A statement that rests on a choice of
this model, or on one the spec marks as its own decision (92_eei_decisions.md), says so in its docstring. -/

namespace Sys2Proof.Stmt

open Sys2Proof.Machine

/-! ### What a next state leaves unchanged -/

/-- The receive side, the configuration, the script and the application's answer are unchanged. -/
def SameRest (s t : State) : Prop :=
  t.config = s.config ∧ t.rxBuf = s.rxBuf ∧ t.lastRxTime = s.lastRxTime ∧ t.rxFifo = s.rxFifo ∧
    t.inputs = s.inputs ∧ t.result = s.result ∧ t.started = s.started

/-- The three registers of the scheduler are unchanged. -/
def SameScheduler (s t : State) : Prop :=
  t.scanCursor = s.scanCursor ∧ t.sweepInProgress = s.sweepInProgress ∧ t.sweepStart = s.sweepStart

/-- Every byte of the payload store reads as before. -/
def SameMemory (s t : State) : Prop := ∀ a, Memory.read t.mem a = Memory.read s.mem a

/-- Every item but item `i` is unchanged in every field. -/
def SameOtherItems (s t : State) (i : Nat) : Prop := ∀ j, j ≠ i → t.items[j]? = s.items[j]?

/-- The trace gained the events `evs` and then one `Send` of `f`, at a time no earlier than the turnaround delay
allows; the direction line is at rest if it is driven at all; one choice of the environment is used up. -/
def Sends (s t : State) (evs : List TraceEvent) (f : Frame) : Prop :=
  ∃ time, (0 < s.config.turnMs → s.config.turnMs ≤ time - s.lastRxTime) ∧
    t.trace = s.trace ++ evs ++ linkEvents s.config f time ∧
    t.dir = (if s.config.flowCtrl then false else s.dir) ∧ t.link = s.link.tail

/-- `t` is `s` after sending `f`, and nothing else. -/
def OnlySends (s t : State) (f : Frame) : Prop :=
  Sends s t [] f ∧ t.items = s.items ∧ SameMemory s t ∧ SameScheduler s t ∧ SameRest s t

/-! ### Frames -/

/-- `StatusFrame(C, D)` of rule R178, for the device of state `s`. -/
def statusFrame (s : State) (c d : Byte) : Frame := withCrc [s.config.devAddr, c, d]

/-- `PushCmd(kind)` of rule R179. -/
def pushCmd : Kind → Byte
  | .byte => 0xDA
  | .word => 0xDB
  | .dword => 0xDC
  | .float => 0xDC
  | .hsb => 0xDD
  | .rgb => 0xDD
  | .rgbw => 0xDD
  | .array => 0xDE

/-- `PushFrame(i)` of rule R179 for an item with value `x`. -/
def pushFrameBytes (s : State) (it : Item) (x : List Byte) : Frame :=
  withCrc ([s.config.devAddr, pushCmd it.kind, lo8 it.addr, hi8 it.addr] ++
    (if it.kind = .array then [lo8 (BitVec.ofNat 16 x.length), hi8 (BitVec.ofNat 16 x.length)] else []) ++ x)

/-! ### Items -/

/-- Item `i` is `it`, and it is the first item with the address `addr` (rule R28). -/
def FoundAt (s : State) (addr : Word16) (i : Nat) (it : Item) : Prop :=
  s.items[i]? = some it ∧ it.addr = addr ∧ ∀ j < i, ∀ other, s.items[j]? = some other → other.addr ≠ addr

/-- No item has the address `addr` (rule R28). -/
def Missing (s : State) (addr : Word16) : Prop := ∀ it ∈ s.items, it.addr ≠ addr

/-- The payload bytes of item `i` are `data` and every other byte of the store reads as before. -/
def StoredBytes (s t : State) (i : Nat) (data : List Byte) : Prop :=
  (∀ k (h : k < data.length), Memory.read t.mem (payloadBase i + k) = data[k]) ∧
    ∀ a, ¬ (payloadBase i ≤ a ∧ a < payloadBase i + data.length) → Memory.read t.mem a = Memory.read s.mem a

/-- A wire write of `data` to item `i`, acknowledged: the bytes and the length are stored, address, kind and capacity
are unchanged, `dirty` is not set, every other item is unchanged, `OnWrite(i)` comes before `ACK`, and nothing else
changes (rules R160, R166). -/
def AcceptedWrite (s t : State) (i : Nat) (it : Item) (data : List Byte) : Prop :=
  StoredBytes s t i data ∧
    (∃ d, (d = true → it.dirty = true) ∧ t.items[i]? = some { it with len := data.length, dirty := d }) ∧
    SameOtherItems s t i ∧ Sends s t [.onWrite i] (statusFrame s 0xE0 0x00) ∧ SameScheduler s t ∧ SameRest s t

/-- The five write commands with their data. -/
def WriteOf (ins : Instr) (addr : Word16) (data : List Byte) : Prop :=
  (∃ d0, ins = .wrb addr d0 ∧ data = [d0]) ∨
  (∃ d0 d1, ins = .wrw addr d0 d1 ∧ data = [d0, d1]) ∨
  (∃ d0 d1 d2 d3, ins = .wrd addr d0 d1 d2 d3 ∧ data = [d0, d1, d2, d3]) ∨
  (∃ d0 d1 d2 d3, ins = .wrc addr d0 d1 d2 d3 ∧ data = [d0, d1, d2, d3]) ∨
  ins = .wra addr data

/-- The item does not take the write: its kind does not accept the command, or an Array write is longer than its
capacity (rules R160, R169). -/
def DoesNotFit (ins : Instr) (it : Item) : Prop :=
  match ins with
  | .wrb _ _ => it.kind ≠ .byte
  | .wrw _ _ _ => it.kind ≠ .word
  | .wrd _ _ _ _ _ => it.kind ∈ [Kind.byte, .word, .array]
  | .wrc _ _ _ _ _ => it.kind ∈ [Kind.byte, .word, .array]
  | .wra _ data => it.kind ≠ .array ∨ it.cap < data.length
  | _ => False

/-- Item `j` was pushed: its frame was sent, it is clean, every other item and the store are unchanged (rules R180,
R181). -/
def PushedItem (s t : State) (j : Nat) (it : Item) : Prop :=
  Sends s t [] (pushFrameBytes s it (valueOf s j)) ∧ t.items[j]? = some { it with dirty := false } ∧
    SameOtherItems s t j ∧ SameMemory s t ∧ SameRest s t

/-! ### The scheduler's walk -/

/-- The start index of the sweep a scan runs in: the open sweep's, or the cursor for a fresh one. -/
def sweepFrom (s : State) : Nat := if s.sweepInProgress then s.sweepStart else s.scanCursor

/-- The scan examines the index `k` places after the cursor, if it finds nothing before: it has not come back to the
sweep's start (rule R144). -/
def InWalk (s : State) (k : Nat) : Prop :=
  k < s.items.length ∧ ∀ m, 0 < m → m ≤ k → (s.scanCursor + m) % s.items.length ≠ sweepFrom s

/-- `j` is the first dirty index of the walk. -/
def FirstDirty (s : State) (j : Nat) : Prop :=
  ∃ k, InWalk s k ∧ j = (s.scanCursor + k) % s.items.length ∧ dirtyAt s.items j = true ∧
    ∀ m < k, dirtyAt s.items ((s.scanCursor + m) % s.items.length) = false

/-- No index of the walk is dirty. -/
def NoneDirty (s : State) : Prop :=
  ∀ k, InWalk s k → dirtyAt s.items ((s.scanCursor + k) % s.items.length) = false

/-- The scheduler after the push of item `j` in a sweep from `start` (rules R145, R146). -/
def AfterPush (s t : State) (j : Nat) : Prop :=
  t.sweepStart = sweepFrom s ∧
    (if (j + 1) % s.items.length = sweepFrom s then
      t.scanCursor = (sweepFrom s + 1) % s.items.length ∧ t.sweepInProgress = false
    else t.scanCursor = (j + 1) % s.items.length ∧ t.sweepInProgress = true)

/-- The line returns from every `Send`: no clock stops and no flush hangs, whatever the delays and flush times. -/
def LineReturns (s : State) : Prop := ∀ c ∈ s.link, ∃ delay flush, c = .completes delay flush

/-- `s` after the application has made the marked items dirty: `marked` says which, in index order. -/
def withMarks (marked : List Bool) (s : State) : State :=
  { s with items := List.zipWith (fun it b => { it with dirty := it.dirty || b }) s.items marked }

/-- `k` poll commands in a row with flag `flag`, no other step between them. -/
def polls (flag : Byte) : Nat → State → Result
  | 0, s => .next s
  | k + 1, s => andThen (exec (.poll flag) s) (polls flag k)

/-! ### Steps of the machine -/

/-- The next event is `e`, in a valid configuration. -/
def Ready (s : State) (e : Input) : Prop := configOk s.config s.items ∧ nextInput s = e

/-- The state a poll invocation or a local operation starts from: the event is off the script and the engine has
started (rule R252). -/
def begun (s : State) : State := (s.setInputs s.inputs.tail).setStarted

/-- What follows the dispatch of a frame: the whole buffer is cleared (rule R131). -/
def thenClear (r : Result) : Result := andThen r fun t => .next { t with rxBuf := [] }

/-- A local operation changed neither the configuration nor the receive side, and its event is off the script. -/
def SameSurroundings (s t : State) : Prop :=
  t.config = s.config ∧ t.rxBuf = s.rxBuf ∧ t.lastRxTime = s.lastRxTime ∧ t.rxFifo = s.rxFifo ∧
    t.inputs = s.inputs.tail ∧ t.started = true

/-- A local operation sent nothing: the line and the environment's choices are as before. -/
def SendsNothing (s t : State) : Prop := t.dir = s.dir ∧ t.clock = s.clock ∧ t.link = s.link

/-- Items, store, trace, scheduler and line are unchanged. -/
def ChangesNothing (s t : State) : Prop :=
  t.items = s.items ∧ SameMemory s t ∧ t.trace = s.trace ∧ SameScheduler s t ∧ SendsNothing s t ∧
    SameSurroundings s t

/-- A local write of `v` to item `h`: stored, dirty, `OnWrite(h)` emitted, nothing sent (rule R217). -/
def LocalWrite (s t : State) (h : Nat) (it : Item) (v : List Byte) : Prop :=
  StoredBytes s t h v ∧ t.items[h]? = some { it with len := v.length, dirty := true } ∧ SameOtherItems s t h ∧
    t.trace = s.trace ++ [.onWrite h] ∧ SameScheduler s t ∧ SendsNothing s t ∧ SameSurroundings s t

/-- The wire bytes of an application value at an item of a kind (rule R27): bytes stand for themselves; a number is
written low byte first and cut to the length of a Byte, Word or Dword, and has no bytes at another kind (log 9). -/
def ValueBytes (kind : Kind) (value : AppValue) (v : List Byte) : Prop :=
  value = .bytes v ∨ ∃ n, value = .number n ∧
    ((kind = .byte ∧ v = [n.extractLsb' 0 8]) ∨
      (kind = .word ∧ v = [n.extractLsb' 0 8, n.extractLsb' 8 8]) ∨
      (kind = .dword ∧ v = [n.extractLsb' 0 8, n.extractLsb' 8 8, n.extractLsb' 16 8, n.extractLsb' 24 8]))

/-- The length of a local value fits the item (rule R217). -/
def Fits (it : Item) (v : List Byte) : Prop :=
  if it.kind = .array then v.length ≤ it.cap else klen it.kind = some v.length

/-! ### The CRC over natural numbers -/

/-- One round of rule R110 on a 16-bit accumulator kept as a number. -/
def crcRoundNat (acc : Nat) : Nat := (if acc.testBit 15 then acc ^^^ 0x8380 else acc) * 2 % 65536

/-- The accumulator of rule R110 after a byte sequence. -/
def crcAccNat : Nat → List Nat → Nat
  | acc, [] => acc
  | acc, b :: bs => crcAccNat (crcRoundNat^[8] (acc ^^^ b * 256)) bs

/-- One step of the 8-bit register form of rule R113: shift out the top bit, subtract 0x07 if it was set. -/
def polyRound (c : Byte) : Byte := if c.getLsbD 7 then (c <<< 1) ^^^ 0x07 else c <<< 1

/-- The MSB-first CRC of rule R113: polynomial 0x07, initial value 0, nothing reflected, nothing added at the end. -/
def polyCrc (s : List Byte) : Byte := s.foldl (fun c b => polyRound^[8] (c ^^^ b)) 0

end Sys2Proof.Stmt

open Sys2Proof Sys2Proof.Machine Sys2Proof.Stmt

/-! ## The CRC-8 generator -/

/-- Rule R110: the generator is the algorithm of the rule, evaluated over natural numbers; and the rule's worked
example. -/
def Obligations.Crc8IsTheStatedAlgorithm : Prop :=
  (∀ s : List Byte, (crc8 s).toNat = crcAccNat 0 (s.map BitVec.toNat) / 256) ∧ crc8 [0x01, 0xD0, 0x00] = 0xD1

/-- 40_crc8.md section 2 (the spec derives it): the same function as the MSB-first CRC with polynomial 0x07. -/
def Obligations.Crc8EqualsPolynomialDivision : Prop :=
  (∀ s : List Byte, crc8 s = polyCrc s) ∧ polyCrc [0x31, 0x32, 0x33, 0x34, 0x35, 0x36, 0x37, 0x38, 0x39] = 0xF4

/-- 40_crc8.md section 2 (the spec derives it): a sequence followed by a byte has CRC 0 exactly when the byte is the
sequence's CRC, so comparing the last byte and testing the whole frame for 0 accept the same frames. -/
def Obligations.Crc8ResidueIsZeroExactlyForTheRightByte : Prop :=
  ∀ (s : List Byte) (b : Byte), crc8 (s ++ [b]) = 0 ↔ b = crc8 s

/-- 40_crc8.md section 2 (the source requires it for this polynomial): flipping any single bit changes the CRC. -/
def Obligations.Crc8DetectsEverySingleBitFlip : Prop :=
  ∀ (s : List Byte) (j : Nat) (h : j < s.length) (k : Nat), k < 8 →
    crc8 (s.set j (s[j] ^^^ (1#8 <<< k))) ≠ crc8 s

/-! ## Encoding -/

/-- Frames written out from 95_test_vectors.md V1, V3a and V3b decode to the instructions they stand for. -/
def Obligations.WrittenOutFramesDecode : Prop :=
  decode 0x01 [0x01, 0xD0, 0x01, 0xD6] = .ok (.poll 0x01, []) ∧
  decode 0x01 [0x01, 0xD1, 0x34, 0x12, 0x81] = .ok (.read 0x1234, []) ∧
  decode 0x01 [0x01, 0xDA, 0x34, 0x12, 0xFF, 0xF7] = .ok (.wrb 0x1234 0xFF, []) ∧
  decode 0x01 [0x01, 0xDC, 0x02, 0x00, 0x78, 0x56, 0x34, 0x12, 0xCA] =
    .ok (.wrd 0x0002 0x78 0x56 0x34 0x12, []) ∧
  decode 0x01 [0x01, 0xDE, 0x04, 0x00, 0x03, 0x00, 0xAA, 0xBB, 0xCC, 0x71] =
    .ok (.wra 0x0004 [0xAA, 0xBB, 0xCC], []) ∧
  decodeReply 0x01 [0x01, 0xE1, 0xD1, 0x04] = .ok (.badcrc 0xD1, [])

/-- Decode and encode agree on every command: the frame of a well-formed host-to-device instruction, whatever follows
it, decodes to the instruction and leaves what follows. -/
def Obligations.EncodedCommandDecodesToItself : Prop :=
  ∀ (dev : Byte) (i : Instr) (rest : List Byte), i.fromHost = true → i.wellFormed = true →
    decode dev (encode dev i ++ rest) = .ok (i, rest)

/-- Decode and encode agree on every device-to-host frame, read as the host reads it. -/
def Obligations.EncodedReplyDecodesToItself : Prop :=
  ∀ (dev : Byte) (i : Instr) (rest : List Byte), i.fromHost = false → i.wellFormed = true →
    decodeReply dev (encode dev i ++ rest) = .ok (i, rest)

/-- The decoder accepts nothing but frames: whatever it reads is a well-formed host-to-device instruction, and the
bytes are its encoding followed by the rest. -/
def Obligations.DecodedBytesAreTheEncoding : Prop :=
  ∀ (dev : Byte) (bs rest : List Byte) (i : Instr), decode dev bs = .ok (i, rest) →
    i.fromHost = true ∧ i.wellFormed = true ∧ bs = encode dev i ++ rest

/-- Rule R81: the last byte of every frame is the CRC of the bytes before it; the encoder appends it, the decoder
checks it. -/
def Obligations.LastByteIsTheCrcOfTheRest : Prop :=
  (∀ (dev : Byte) (i : Instr), (encode dev i).getLast? = some (crc8 (encode dev i).dropLast)) ∧
    ∀ (dev : Byte) (bs rest : List Byte) (i : Instr), decode dev bs = .ok (i, rest) →
      ∃ f, bs = f ++ rest ∧ f.getLast? = some (crc8 f.dropLast)

/-- 30_encoding.md section 5 (decision D8 for the device-to-host codes): of frames that begin with the device address
and have at least 4 bytes, exactly those with a command byte other than the seven are unrecognised. -/
def Obligations.DecoderRecognisesExactlySevenCommands : Prop :=
  ∀ (dev c : Byte) (bs : List Byte), 2 ≤ bs.length →
    (decode dev (dev :: c :: bs) = .error (.unknownCommand c) ↔
      c ∉ [0xD0, 0xD1, 0xDA, 0xDB, 0xDC, 0xDD, 0xDE])

/-! ## The frame decoder -/

/-- A step runs the decoded instruction (rule R131): when the buffer after drain and stale check begins with a frame
that decodes to `i`, the step is `exec i` on that state, and then the whole buffer is cleared. -/
def Obligations.StepRunsTheDecodedInstruction : Prop :=
  ∀ (s : State) (i : Instr) (rest : List Byte), Ready s .poll →
    decode s.config.devAddr (staleCheck (drain (begun s))).rxBuf = .ok (i, rest) →
    step s = thenClear (exec i (staleCheck (drain (begun s))))

/-- 41_rx_framer.md section 1 (the time stamp is decision D7): the drain moves the oldest bytes in order, as many as
fit, and stamps the time only if a byte moved. -/
def Obligations.DrainMovesTheOldestBytesThatFit : Prop :=
  ∀ s : State, s.rxBuf.length ≤ s.config.rxCap →
    ∃ moved, s.rxFifo = moved ++ (drain s).rxFifo ∧ (drain s).rxBuf = s.rxBuf ++ moved ∧
      moved.length = min s.rxFifo.length (s.config.rxCap - s.rxBuf.length) ∧
      (drain s).rxBuf.length ≤ s.config.rxCap ∧
      (drain s).lastRxTime = (if moved = [] then s.lastRxTime else s.clock) ∧
      drain s = { s with rxBuf := (drain s).rxBuf, rxFifo := (drain s).rxFifo, lastRxTime := (drain s).lastRxTime }

/-- Rule R122: a non-empty buffer whose last byte is older than `STALE_MS`, strictly, is discarded whole, any other is
kept, nothing else changes, and a step that drained a byte never discards. -/
def Obligations.StaleBufferIsDiscardedStrictlyAfterTheTimeout : Prop :=
  ∀ s : State,
    (s.rxBuf ≠ [] → s.config.staleMs < s.clock - s.lastRxTime → staleCheck s = { s with rxBuf := [] }) ∧
    (s.clock - s.lastRxTime ≤ s.config.staleMs → staleCheck s = s) ∧
    (0 < drainCount s → staleCheck (drain s) = drain s)

/-- Rules R125 and R128: a poll step that finds fewer than 4 bytes, whatever they are, or the beginning of a command's
frame but not all of it, returns with the buffer unchanged and nothing sent. -/
def Obligations.IncompleteFrameWaits : Prop :=
  ∀ s : State, Ready s .poll →
    (staleCheck (drain (begun s))).rxBuf.length < 4 ∨
      (∃ (i : Instr) (k : Nat), i.fromHost = true ∧ i.wellFormed = true ∧
        k < (encode s.config.devAddr i).length ∧
        (staleCheck (drain (begun s))).rxBuf = (encode s.config.devAddr i).take k) →
    ∃ t, step s = .next t ∧ t = staleCheck (drain (begun s)) ∧ t.trace = s.trace ∧ t.items = s.items ∧
      SameMemory s t ∧ SameScheduler s t

/-- 41_rx_framer.md section 2 (rules R124 and R132; the single-byte skip is decision D9, re-entry at the top D10): of
at least 4 bytes, a first byte that is not the device address, or is followed by an unrecognised command, is dropped
alone and the loop starts again. -/
def Obligations.BadFrameStartDropsExactlyOneByte : Prop :=
  ∀ (dev a c : Byte) (bs : List Byte), 2 ≤ bs.length →
    a ≠ dev ∨ c ∉ [0xD0, 0xD1, 0xDA, 0xDB, 0xDC, 0xDD, 0xDE] →
    recognise dev (a :: c :: bs) = recognise dev (c :: bs)

/-- 41_rx_framer.md section 3, resynchronisation, within one poll step: garbage that does not hold the device address,
then a valid frame, then anything, all of which fits in the buffer: the step runs exactly that frame and the whole
buffer is gone. That the drain stamps the time with the step's clock reading is decision D7 (log 15;
41_rx_framer.md section 1). -/
def Obligations.GarbageThenFrameRunsTheFrame : Prop :=
  ∀ (s : State) (g rest : List Byte) (i : Instr), Ready s .poll → s.rxBuf = [] →
    i.fromHost = true → i.wellFormed = true → (∀ b ∈ g, b ≠ s.config.devAddr) →
    s.rxFifo = g ++ encode s.config.devAddr i ++ rest → s.rxFifo.length ≤ s.config.rxCap →
    step s = thenClear (exec i
      { begun s with rxBuf := encode s.config.devAddr i ++ rest, rxFifo := [], lastRxTime := s.clock })

/-- 41_rx_framer.md section 2 (rule R130; that the reported byte is the computed CRC is decision D13): a complete frame
with a wrong last byte runs nothing: the answer is `BADCRC` with the computed CRC if enabled, else silence, and the
whole buffer is cleared. -/
def Obligations.WrongCrcRunsNothingAndClearsTheBuffer : Prop :=
  ∀ (s : State) (i : Instr) (k : Byte) (rest : List Byte), Ready s .poll → s.rxBuf = [] →
    i.fromHost = true → i.wellFormed = true → linkLive (drain s) →
    k ≠ crc8 (encode s.config.devAddr i).dropLast →
    s.rxFifo = (encode s.config.devAddr i).dropLast ++ k :: rest → s.rxFifo.length ≤ s.config.rxCap →
    ∃ t, step s = .next t ∧ t.rxBuf = [] ∧ t.rxFifo = [] ∧ t.items = s.items ∧ SameMemory s t ∧
      SameScheduler s t ∧
      (if s.config.enCrcResp then
        Sends (drain s) t [] (statusFrame s 0xE1 (crc8 (encode s.config.devAddr i).dropLast))
      else t.trace = s.trace ∧ t.dir = s.dir)

/-- 41_rx_framer.md section 3 (rule R138; decision D12): a 0xDE frame longer than a full buffer is never complete: a
poll step sends nothing, takes nothing from the queue, does not move the time stamp, and keeps the buffer until the
stale timeout discards it. -/
def Obligations.OversizedArrayFrameOnlyGoesStale : Prop :=
  ∀ (s : State) (rest : List Byte), Ready s .poll → s.rxBuf.length = s.config.rxCap →
    s.rxBuf = s.config.devAddr :: 0xDE :: rest → 4 ≤ rest.length →
    s.config.rxCap < 7 + (le16 (byteAt rest 2) (byteAt rest 3)).toNat →
    ∃ t, step s = .next t ∧ t.trace = s.trace ∧ t.items = s.items ∧ SameMemory s t ∧ t.rxFifo = s.rxFifo ∧
      t.lastRxTime = s.lastRxTime ∧
      t.rxBuf = (if s.config.staleMs < s.clock - s.lastRxTime then [] else s.rxBuf)

/-- 41_rx_framer.md section 3 (rule R135): a poll step sends at most one frame, and never takes back what it sent. -/
def Obligations.PollStepSendsAtMostOneFrame : Prop :=
  ∀ s t : State, nextInput s = .poll → step s = .next t →
    ∃ sent, framesOf t.trace = framesOf s.trace ++ sent ∧ sent.length ≤ 1

/-! ## The poll and read commands -/

/-- 42_poll_scheduler.md section 2 (rules R143 to R146; the third register is decision D19, the end of a sweep D20, that
a push clears `dirty` D17): a normal poll pushes the first dirty item of its walk, clears only that item's flag, and
moves the scheduler on. -/
def Obligations.PollPushesTheFirstDirtyItemOfItsWalk : Prop :=
  ∀ (s : State) (j : Nat) (it : Item), schedulerOk s → linkLive s → FirstDirty s j → s.items[j]? = some it →
    itemLenOk it →
    ∃ t, exec (.poll 0x00) s = .next t ∧ PushedItem s t j it ∧ AfterPush s t j

/-- 42_poll_scheduler.md section 2 (rule R147; decisions D19, D20): a normal poll whose walk meets no dirty item answers
`NODATA`, ends the sweep, and the next one starts one after its start. -/
def Obligations.PollWithNothingDirtyAnswersNoData : Prop :=
  ∀ s : State, schedulerOk s → linkLive s → s.items ≠ [] → NoneDirty s →
    ∃ t, exec (.poll 0x00) s = .next t ∧ Sends s t [] (statusFrame s 0xE2 0x00) ∧ t.items = s.items ∧
      SameMemory s t ∧ SameRest s t ∧ t.sweepStart = sweepFrom s ∧
      t.scanCursor = (sweepFrom s + 1) % s.items.length ∧ t.sweepInProgress = false

/-- 42_poll_scheduler.md sections 1 and 2 (rule R142; that the scheduler is not reset is decision D22, the third register
D19, the end of a sweep D20, that a push clears `dirty` D17; log 15): a forced poll of a table with items answers with
the item at the cursor, whatever was dirty before; every other item is dirty after it, no payload changes, and the
scheduler moves on from where it was. -/
def Obligations.ForcedPollPushesTheItemAtTheCursor : Prop :=
  ∀ (s : State) (it : Item), schedulerOk s → linkLive s → s.items[s.scanCursor]? = some it → itemLenOk it →
    ∃ t, exec Instr.fpoll s = .next t ∧
      Sends s t [] (pushFrameBytes s it (valueOf s s.scanCursor)) ∧
      t.items[s.scanCursor]? = some { it with dirty := false } ∧
      (∀ j, j ≠ s.scanCursor → t.items[j]? = s.items[j]?.map fun it => { it with dirty := true }) ∧
      SameMemory s t ∧ SameRest s t ∧ AfterPush s t s.scanCursor

/-- 42_poll_scheduler.md section 2 (rule R148; decision D21): with an empty table both flags answer `NODATA` and write no
scheduler state. -/
def Obligations.PollOfAnEmptyTableAnswersNoData : Prop :=
  ∀ (s : State) (flag : Byte), linkLive s → s.items = [] → flag = 0x00 ∨ flag = 0x01 →
    ∃ t, exec (.poll flag) s = .next t ∧ OnlySends s t (statusFrame s 0xE2 0x00)

/-- 42_poll_scheduler.md section 1, 60_exceptions.md section 1: any other flag takes no action but the `BADFLAG` answer,
and that only if it is enabled. -/
def Obligations.PollWithAnotherFlagTakesNoAction : Prop :=
  ∀ (s : State) (flag : Byte), linkLive s → flag ≠ 0x00 → flag ≠ 0x01 →
    (s.config.enFlagResp = true → ∃ t, exec (.poll flag) s = .next t ∧ OnlySends s t (statusFrame s 0xE3 0x00)) ∧
    (s.config.enFlagResp = false → exec (.poll flag) s = .next s)

/-- 43_read.md (rules R155, R156; that the push clears `dirty` is decision D17): a read of an item's address answers its
whole value, clears its flag and touches nothing else, the scheduler included. -/
def Obligations.ReadAnswersTheWholeValue : Prop :=
  ∀ (s : State) (addr : Word16) (i : Nat) (it : Item), linkLive s → FoundAt s addr i it → itemLenOk it →
    ∃ t, exec (.read addr) s = .next t ∧ PushedItem s t i it ∧ SameScheduler s t

/-- Rule R233 and, for the write commands, decision D16: a read or a write of an address without an item answers
`NOADDR` and nothing else happens. -/
def Obligations.MissingAddressAnswersNoAddr : Prop :=
  ∀ (s : State) (addr : Word16) (ins : Instr) (data : List Byte), linkLive s → Missing s addr →
    ins = .read addr ∨ WriteOf ins addr data →
    ∃ t, exec ins s = .next t ∧ OnlySends s t (statusFrame s 0xE4 0x00)

/-! ## The write commands -/

/-- Rule R161: a Byte item takes `WRB`, an item of any other kind answers `WRREJ`. -/
def Obligations.WrbStoresOneByte : Prop :=
  ∀ (s : State) (addr : Word16) (d0 : Byte) (i : Nat) (it : Item), Memory.wf s.mem → linkLive s →
    FoundAt s addr i it →
    (it.kind = .byte → ∃ t, exec (.wrb addr d0) s = .next t ∧ AcceptedWrite s t i it [d0]) ∧
    (it.kind ≠ .byte → ∃ t, exec (.wrb addr d0) s = .next t ∧ OnlySends s t (statusFrame s 0xE5 0x00))

/-- Rule R162: a Word item takes `WRW`, low byte first, and no other kind does. -/
def Obligations.WrwStoresTwoBytes : Prop :=
  ∀ (s : State) (addr : Word16) (d0 d1 : Byte) (i : Nat) (it : Item), Memory.wf s.mem → linkLive s →
    FoundAt s addr i it →
    (it.kind = .word → ∃ t, exec (.wrw addr d0 d1) s = .next t ∧ AcceptedWrite s t i it [d0, d1]) ∧
    (it.kind ≠ .word → ∃ t, exec (.wrw addr d0 d1) s = .next t ∧ OnlySends s t (statusFrame s 0xE5 0x00))

/-- 44_write.md section 2 (that each of `WRD` and `WRC` is accepted by every four-byte kind is decision D15): a Dword, Float,
Hsb, Rgb or Rgbw item stores the four bytes of either command as they are. -/
def Obligations.WrdAndWrcStoreFourBytesInAnyFourByteItem : Prop :=
  ∀ (s : State) (ins : Instr) (addr : Word16) (d0 d1 d2 d3 : Byte) (i : Nat) (it : Item), Memory.wf s.mem →
    linkLive s → ins = .wrd addr d0 d1 d2 d3 ∨ ins = .wrc addr d0 d1 d2 d3 → FoundAt s addr i it →
    it.kind ∈ [Kind.dword, .float, .hsb, .rgb, .rgbw] →
    ∃ t, exec ins s = .next t ∧ AcceptedWrite s t i it [d0, d1, d2, d3]

/-- Rule R165: an Array item takes `WRA` of a length up to its capacity, 0 included, and its length becomes the data's;
a longer one, or an item of another kind, answers `WRREJ`. -/
def Obligations.WraStoresUpToTheCapacity : Prop :=
  ∀ (s : State) (addr : Word16) (data : List Byte) (i : Nat) (it : Item), Memory.wf s.mem → linkLive s →
    FoundAt s addr i it →
    (it.kind = .array → data.length ≤ it.cap →
      ∃ t, exec (.wra addr data) s = .next t ∧ AcceptedWrite s t i it data) ∧
    (it.kind ≠ .array ∨ it.cap < data.length →
      ∃ t, exec (.wra addr data) s = .next t ∧ OnlySends s t (statusFrame s 0xE5 0x00))

/-- Rule R167: a write the item does not take answers `WRREJ`, emits no `OnWrite`, and leaves the item unchanged in
every field. -/
def Obligations.RejectedWriteChangesNoItem : Prop :=
  ∀ (s : State) (addr : Word16) (ins : Instr) (data : List Byte) (i : Nat) (it : Item), linkLive s →
    WriteOf ins addr data → FoundAt s addr i it → DoesNotFit ins it →
    ∃ t, exec ins s = .next t ∧ OnlySends s t (statusFrame s 0xE5 0x00)

/-- 44_write.md section 3 (that a wire write does not clear `dirty` is decision D18): no write command changes any item's
flag. -/
def Obligations.WireWritesKeepEveryDirtyFlag : Prop :=
  ∀ (s t : State) (addr : Word16) (ins : Instr) (data : List Byte), WriteOf ins addr data →
    exec ins s = .next t → ∀ j, dirtyAt t.items j = dirtyAt s.items j

/-- Rule R158: writing two bytes to a Word item and then reading it answers the identical two bytes, with their CRC,
over a line that returns from both sends. -/
def Obligations.WordWrittenThenReadComesBack : Prop :=
  ∀ (s : State) (addr : Word16) (d0 d1 : Byte) (i : Nat) (it : Item), Memory.wf s.mem → linkLive s →
    FoundAt s addr i it → it.kind = .word →
    ∃ t, exec (.wrw addr d0 d1) s = .next t ∧
      framesOf t.trace = framesOf s.trace ++ [statusFrame s 0xE0 0x00] ∧
      (linkLive t → ∃ u, exec (.read addr) t = .next u ∧
        framesOf u.trace =
          framesOf t.trace ++ [withCrc [s.config.devAddr, 0xDB, lo8 addr, hi8 addr, d0, d1]])

/-! ## The frame encoder -/

/-- 45_tx_frames.md section 3: `ACK`, `NODATA`, `NOADDR` and `WRREJ` send their four bytes and change nothing else.
That a status row runs by itself as an instruction, in any state, is the model's reading of a device-to-host row
(log 5). -/
def Obligations.UngatedStatusFramesAreSent : Prop :=
  ∀ s : State, linkLive s →
    (∃ t, exec .ack s = .next t ∧ OnlySends s t (statusFrame s 0xE0 0x00)) ∧
    (∃ t, exec .nodata s = .next t ∧ OnlySends s t (statusFrame s 0xE2 0x00)) ∧
    (∃ t, exec .noaddr s = .next t ∧ OnlySends s t (statusFrame s 0xE4 0x00)) ∧
    (∃ t, exec .wrrej s = .next t ∧ OnlySends s t (statusFrame s 0xE5 0x00))

/-- 45_tx_frames.md section 3, 30_encoding.md section 4: `BADCRC`, `BADFLAG` and `HELLO` are sent when their enable is set.
That with the enable clear the instruction changes nothing at all is the model's reading of "only when" (log 5). -/
def Obligations.GatedStatusFramesAreSentOnlyWhenEnabled : Prop :=
  ∀ (s : State) (c : Byte), linkLive s →
    (s.config.enCrcResp = true → ∃ t, exec (.badcrc c) s = .next t ∧ OnlySends s t (statusFrame s 0xE1 c)) ∧
    (s.config.enCrcResp = false → exec (.badcrc c) s = .next s) ∧
    (s.config.enFlagResp = true → ∃ t, exec .badflag s = .next t ∧ OnlySends s t (statusFrame s 0xE3 0x00)) ∧
    (s.config.enFlagResp = false → exec .badflag s = .next s) ∧
    (s.config.fullDuplex = true → ∃ t, exec .hello s = .next t ∧ OnlySends s t (statusFrame s 0xE6 0x00)) ∧
    (s.config.fullDuplex = false → exec .hello s = .next s)

/-- 45_tx_frames.md sections 1 and 2: each push frame is sent with the bytes of its format, and the item it reports, if
there is one with its address, is clean (decision D17); nothing else changes. That a push frame runs by itself, for
any address and data, is the model's reading of a device-to-host row (log 5). -/
def Obligations.PushFramesAreSentAndCleanTheirItem : Prop :=
  ∀ (s : State) (ins : Instr) (addr : Word16) (body : List Byte), linkLive s →
    ((∃ d0, ins = .pushb addr d0 ∧ body = [0xDA, lo8 addr, hi8 addr, d0]) ∨
      (∃ d0 d1, ins = .pushw addr d0 d1 ∧ body = [0xDB, lo8 addr, hi8 addr, d0, d1]) ∨
      (∃ d0 d1 d2 d3, ins = .pushd addr d0 d1 d2 d3 ∧ body = [0xDC, lo8 addr, hi8 addr, d0, d1, d2, d3]) ∨
      (∃ d0 d1 d2 d3, ins = .pushc addr d0 d1 d2 d3 ∧ body = [0xDD, lo8 addr, hi8 addr, d0, d1, d2, d3]) ∨
      (∃ data : List Byte, ins = .pusha addr data ∧ body = 0xDE :: lo8 addr :: hi8 addr ::
        lo8 (BitVec.ofNat 16 data.length) :: hi8 (BitVec.ofNat 16 data.length) :: data)) →
    ∃ t, exec ins s = .next t ∧ Sends s t [] (withCrc (s.config.devAddr :: body)) ∧ SameMemory s t ∧
      SameScheduler s t ∧ SameRest s t ∧
      (∀ i it, FoundAt s addr i it → t.items[i]? = some { it with dirty := false } ∧ SameOtherItems s t i) ∧
      (Missing s addr → t.items = s.items)

/-- Rule R179: the push frame of an item has the item's address, the command byte of its kind, the length field for an
Array, and the item's value. -/
def Obligations.PushFrameHasTheItemsLayout : Prop :=
  ∀ (s : State) (i : Nat) (it : Item), s.items[i]? = some it → itemLenOk it →
    encode s.config.devAddr (pushFrame i it s.mem) = pushFrameBytes s it (valueOf s i)

/-- 45_tx_frames.md section 1: pushing an item is running the push instruction made from it, where the item is the first
with its address. What running a push instruction by itself means is the model's reading of a device-to-host row
(log 5). -/
def Obligations.PushOfAnItemIsItsPushInstruction : Prop :=
  ∀ (s : State) (i : Nat) (it : Item), FoundAt s it.addr i it →
    pushItem i s = exec (pushFrame i it s.mem) s

/-! ## Link timing -/

/-- 46_link_timing.md section 1 (rule R201; the environment's earliest choice is decision D33): the frame is written when
the clock first reads `last_rx_time + TURN_MS` if the delay has not passed yet, and at once otherwise. That with flow
control the flush then takes 0 ms, so that the clock reads the same after it, is the model's choice (log 7). -/
def Obligations.SendWaitsForTheTurnaroundDelay : Prop :=
  ∀ (s : State) (f : Frame), s.link = [] →
    (0 < s.config.turnMs → s.clock - s.lastRxTime < s.config.turnMs →
      ∃ t, send f s = .next t ∧
        t.trace = s.trace ++ linkEvents s.config f (s.lastRxTime + s.config.turnMs) ∧
        t.clock = s.lastRxTime + s.config.turnMs ∧ t.items = s.items) ∧
    (s.config.turnMs = 0 ∨ s.config.turnMs ≤ s.clock - s.lastRxTime →
      ∃ t, send f s = .next t ∧ t.trace = s.trace ++ linkEvents s.config f s.clock ∧ t.clock = s.clock ∧
        t.items = s.items)

/-- 46_link_timing.md section 1: with flow control the four actions happen in order with nothing between them and the
line is at rest afterwards; without it there is only the write and the line is not touched (decision D26). -/
def Obligations.SendDrivesTheDirectionLineOnlyWithFlowControl : Prop :=
  ∀ (s : State) (f : Frame), linkLive s →
    ∃ t time, send f s = .next t ∧
      (s.config.flowCtrl = true →
        t.trace = s.trace ++ [.dirAssert, .tx f time, .flushed, .dirDeassert] ∧ t.dir = false) ∧
      (s.config.flowCtrl = false → t.trace = s.trace ++ [.tx f time] ∧ t.dir = s.dir)

/-- 46_link_timing.md section 1 (rule R202 (b); decision D33): over every step of the machine and whatever the
environment chooses, no frame is written before the turnaround delay has passed since the last received byte. -/
def Obligations.NoStepWritesAFrameTooEarly : Prop :=
  ∀ s t : State, step s = .next t →
    ∃ gained, t.trace = s.trace ++ gained ∧
      ∀ f time, .tx f time ∈ gained → 0 < t.config.turnMs → t.config.turnMs ≤ time - t.lastRxTime

/-- 46_link_timing.md section 2, 60_exceptions.md section 4 (rule R240): an instruction that sends over a line whose flush
never returns, or while the clock has stopped in the wait, never ends. -/
def Obligations.SendStopsWhenFlushOrClockNeverReturns : Prop :=
  ∀ (s : State) (f : Frame) (delay : Word32) (more : List LinkChoice),
    (s.config.flowCtrl = true → s.link = .flushHangs delay :: more → send f s = .fault .flushNeverReturns) ∧
    (0 < s.config.turnMs → s.clock - s.lastRxTime < s.config.turnMs → s.link = .clockStops :: more →
      send f s = .fault .clockStopped)

/-- 60_exceptions.md section 1 ("No error in this engine is fatal") and section 4 (rule R240): no instruction is ever
refused, and one stops only where its `Send` never ends. -/
def Obligations.InstructionsStopOnlyInSend : Prop :=
  ∀ (s : State) (i : Instr), (∀ e, exec i s ≠ .refused e) ∧ ∀ e, exec i s = .fault e → sendStop s = some e

/-! ## Local operations -/

/-- 47_local_ops.md sections 1 and 2 (rules R27, R216, R217; decisions D23, D31): a value of a fitting length, given as
bytes or as a number, is stored, the item is dirty whether or not the bytes differ, and `OnWrite` is emitted; a value
of another length, a number at a kind that gives numbers no bytes (log 9), or a handle outside the table, is refused
and changes nothing. -/
def Obligations.SetValueStoresAndMarksDirtyOrIsRefused : Prop :=
  ∀ (s : State) (h : Nat) (value : AppValue), Ready s (.setValue h value) → Memory.wf s.mem →
    (∀ it v, s.items[h]? = some it → ValueBytes it.kind value v → Fits it v →
      ∃ t, step s = .next t ∧ LocalWrite s t h it v ∧ t.result = .done) ∧
    ((∀ it v, s.items[h]? = some it → ValueBytes it.kind value v → ¬ Fits it v) →
      ∃ t, step s = .next t ∧ ChangesNothing s t ∧ t.result = .refused)

/-- 47_local_ops.md sections 1 and 2 (rules R27, R216, R218; decisions D23, D31): the same value, given as bytes or as a
number, is answered false and changes nothing, another of a fitting length is answered true and stored as `SetValue`
stores it, one of the wrong length is answered false; a number at a kind that gives numbers no bytes (log 9), or a
handle outside the table, is refused and changes nothing. -/
def Obligations.SetValueIfChangedComparesThenStores : Prop :=
  ∀ (s : State) (h : Nat) (value : AppValue), Ready s (.setValueIfChanged h value) → Memory.wf s.mem →
    ∃ t, step s = .next t ∧
      (∀ it v, s.items[h]? = some it → ValueBytes it.kind value v →
        (Fits it v → v ≠ valueOf s h → LocalWrite s t h it v ∧ t.result = .changed true) ∧
        (¬ Fits it v ∨ v = valueOf s h → ChangesNothing s t ∧ t.result = .changed false)) ∧
      ((∀ it v, s.items[h]? = some it → ¬ ValueBytes it.kind value v) →
        ChangesNothing s t ∧ t.result = .refused)

/-- 47_local_ops.md sections 1 and 2 (rules R216, R219; decision D31): `GetValue` answers the item's current bytes and
changes nothing; for a handle outside the table it is refused and changes nothing. -/
def Obligations.GetValueAnswersTheBytesAndChangesNothing : Prop :=
  ∀ (s : State) (h : Nat), Ready s (.getValue h) →
    ∃ t, step s = .next t ∧ ChangesNothing s t ∧
      (∀ it, s.items[h]? = some it →
        t.result = .value ((List.range it.len).map fun j => Memory.read s.mem (payloadBase h + j))) ∧
      (s.items.length ≤ h → t.result = .refused)

/-- Rule R221: in full-duplex mode `PushAllDirty` sends one push frame for each dirty item in index order, or `NODATA` if
there is none; after it every item is clean; the scheduler is not touched. -/
def Obligations.PushAllDirtySendsEveryDirtyItemInOrder : Prop :=
  ∀ s : State, Ready s .pushAllDirty → s.config.fullDuplex = true → LineReturns s →
    (∀ it ∈ s.items, itemLenOk it) →
    ∃ t, step s = .next t ∧
      framesOf t.trace = framesOf s.trace ++
        (if ∀ it ∈ s.items, it.dirty = false then [statusFrame s 0xE2 0x00]
        else ((List.range s.items.length).filter (dirtyAt s.items)).filterMap fun i =>
          s.items[i]?.map fun it => pushFrameBytes s it (valueOf s i)) ∧
      t.items = s.items.map (fun it => { it with dirty := false }) ∧ SameMemory s t ∧ SameScheduler s t ∧
      SameSurroundings s t

/-- 47_local_ops.md section 3 (rules R220, R222; decision D25): in full-duplex mode `SendGreeting` sends `HELLO` and changes
nothing else; in half-duplex mode it and `PushAllDirty` are refused and change nothing. -/
def Obligations.UnsolicitedOperationsNeedFullDuplex : Prop :=
  ∀ (s : State) (e : Input), e = .pushAllDirty ∨ e = .sendGreeting → Ready s e →
    (s.config.fullDuplex = true → e = .sendGreeting → linkLive s →
      ∃ t, step s = .next t ∧ Sends s t [] (statusFrame s 0xE6 0x00) ∧ t.items = s.items ∧ SameMemory s t ∧
        SameScheduler s t ∧ SameSurroundings s t) ∧
    (s.config.fullDuplex = false → ∃ t, step s = .next t ∧ ChangesNothing s t ∧ t.result = .refused)

/-- 47_local_ops.md section 1 (rule R215; decisions D4, D31, D32), 00_scope.md section 4: before the first step an item
with a new address in range is appended with a zero, clean value; a full table, an address out of range or taken, too
large an Array, or an Array for the host to write that the receive buffer cannot take is refused, and so is every
registration after the first step. -/
def Obligations.RegistrationAppendsOrIsRefused : Prop :=
  ∀ (s : State) (a : Int) (kind : Kind) (cap : Nat), Ready s (.register a kind cap) → Memory.wf s.mem →
    (s.started = false → s.items.length < s.config.tableCap → 0 ≤ a → a ≤ 65535 →
      (∀ it ∈ s.items, (it.addr.toNat : Int) ≠ a) → (kind = .array → cap ≤ 65535) →
      (kind = .array → (∃ b ∈ s.config.hostArrays, (b.toNat : Int) = a) → 7 + cap < s.config.rxCap) →
      ∃ t it, step s = .next t ∧ t.items = s.items ++ [it] ∧ (it.addr.toNat : Int) = a ∧ it.kind = kind ∧
        it.cap = (klen kind).getD cap ∧ it.len = (klen kind).getD 0 ∧ it.dirty = false ∧
        (∀ j < it.cap, Memory.read t.mem (payloadBase s.items.length + j) = 0) ∧
        t.result = .handle s.items.length ∧ t.trace = s.trace ∧ SameScheduler s t) ∧
    (s.started = true ∨ s.config.tableCap ≤ s.items.length ∨ a < 0 ∨ 65535 < a ∨
      (∃ it ∈ s.items, (it.addr.toNat : Int) = a) ∨ (kind = .array ∧ 65535 < cap) ∨
      (kind = .array ∧ (∃ b ∈ s.config.hostArrays, (b.toNat : Int) = a) ∧ s.config.rxCap ≤ 7 + cap) →
      ∃ e, step s = .refused (.registrationRefused e))

/-! ## The whole machine -/

/-- 10_state.md section 13 (decisions D6, D32): under every configuration and layout, reset empties the buffer, clears
every payload byte and flag, gives every item its reset length, and puts scheduler, time stamp, line and trace at
rest. -/
def Obligations.ResetPutsEveryRegisterAtItsValue : Prop :=
  ∀ (config : Config) (layout : List Item),
    let s := State.resetWith config layout
    s.config = config ∧ s.rxBuf = [] ∧ s.lastRxTime = 0 ∧ (∀ a, Memory.read s.mem a = 0) ∧
      s.items.length = layout.length ∧
      (∀ (i : Nat) (it : Item), layout[i]? = some it →
        s.items[i]? = some { it with len := (klen it.kind).getD 0, dirty := false }) ∧
      s.scanCursor = 0 ∧ s.sweepInProgress = false ∧ s.sweepStart = 0 ∧ s.dir = false ∧ s.trace = []

/-- 10_state.md section 8: the invariant holds after reset, under every valid configuration and layout. -/
def Obligations.ResetMeetsTheInvariant : Prop :=
  State.reset.Inv ∧
    ∀ (config : Config) (layout : List Item), configOk config layout → (State.resetWith config layout).Inv

/-- 10_state.md sections 4 and 8: every step that answers a next state keeps the invariant, from every state that meets
it: the buffer stays bounded, every length fits, the scheduler's registers stay indices of the table and an open sweep
has left its start, the line is at rest, and the payload store stays canonical and inside the table. -/
def Obligations.EveryStepKeepsTheInvariant : Prop :=
  ∀ s t : State, s.Inv → step s = .next t → t.Inv

/-- 00_scope.md section 4, 10_state.md section 8: no step changes the configuration, and once the engine has started none
changes the number, address, kind or capacity of the items; before, a step can only append. A configuration that
breaks a constraint is refused by every step. -/
def Obligations.ConfigurationIsCheckedAndNeverChanged : Prop :=
  (∀ s t : State, step s = .next t →
    t.config = s.config ∧
      (∃ new, t.items.map (fun it => (it.addr, it.kind, it.cap)) =
        s.items.map (fun it => (it.addr, it.kind, it.cap)) ++ new ∧ (s.started = true → new = []))) ∧
  ∀ s : State,
    s.config.tableCap < s.items.length ∨ s.config.rxCap < 10 ∨
      (∃ (i j : Nat) (a b : Item), i < j ∧ s.items[i]? = some a ∧ s.items[j]? = some b ∧ a.addr = b.addr) ∨
      (∃ it ∈ s.items, 65535 < it.cap ∨ (∃ n, klen it.kind = some n ∧ it.cap ≠ n) ∨
        (it.kind = .array ∧ it.addr ∈ s.config.hostArrays ∧ s.config.rxCap ≤ 7 + it.cap)) →
    step s = .refused .invalidConfiguration

/-- 10_state.md section 3 (rule R26; decisions D17, D18): of all instructions only the forced poll ever sets a flag. -/
def Obligations.OnlyTheForcedPollSetsDirtyFromTheWire : Prop :=
  ∀ (s t : State) (i : Instr) (j : Nat), i ≠ Instr.fpoll → exec i s = .next t →
    dirtyAt t.items j = true → dirtyAt s.items j = true

/-- 20_memory.md sections 3 and 6: only a write command changes the payload store or a length, and no instruction touches
the receive side, the configuration or the script. -/
def Obligations.OnlyWritesChangeValues : Prop :=
  ∀ (s t : State) (i : Instr), exec i s = .next t → SameRest s t ∧
    ((∀ addr data, ¬ WriteOf i addr data) →
      SameMemory s t ∧ t.items.map (fun it => it.len) = s.items.map (fun it => it.len))

/-- 20_memory.md section 6, 70_reset_and_hazards.md section 3: in half-duplex mode nothing is sent but in a poll step. -/
def Obligations.HalfDuplexSendsOnlyInPollSteps : Prop :=
  ∀ s t : State, s.config.fullDuplex = false → nextInput s ≠ .poll → step s = .next t →
    framesOf t.trace = framesOf s.trace

/-- 42_poll_scheduler.md section 3 (the spec derives it; rule R149; decisions D17, D19, D20, D22): from the start of a
sweep, `N` polls of a table whose items are all dirty before each poll push the items from the cursor on, one each in
order, and the next sweep starts one further. The forced poll marks every item dirty before each scan. -/
def Obligations.AllDirtyItemsArePushedInTurn : Prop :=
  ∀ s : State, schedulerOk s → s.sweepInProgress = false → s.items ≠ [] → LineReturns s →
    (∀ it ∈ s.items, itemLenOk it) →
    ∃ t, polls 0x01 s.items.length s = .next t ∧
      framesOf t.trace = framesOf s.trace ++ (List.range s.items.length).filterMap (fun k =>
        s.items[(s.scanCursor + k) % s.items.length]?.map fun it =>
          pushFrameBytes s it (valueOf s ((s.scanCursor + k) % s.items.length))) ∧
      t.scanCursor = (s.scanCursor + 1) % s.items.length ∧ t.sweepInProgress = false

/-- 42_poll_scheduler.md section 3 (rule R150; the rotation rests on decisions D19 and D20): polling a clean table any
number of times always answers `NODATA`, never a push frame, and rotates the cursor. -/
def Obligations.CleanTableAlwaysAnswersNoData : Prop :=
  ∀ (s : State) (k : Nat), schedulerOk s → s.sweepInProgress = false → s.items ≠ [] → LineReturns s →
    (∀ it ∈ s.items, it.dirty = false) →
    ∃ t, polls 0x00 k s = .next t ∧
      framesOf t.trace = framesOf s.trace ++ List.replicate k (statusFrame s 0xE2 0x00) ∧
      t.scanCursor = (s.scanCursor + k) % s.items.length ∧ t.sweepInProgress = false ∧ t.items = s.items

/-- 42_poll_scheduler.md section 3 (rules R151, R152, the spec derives them by search; decisions D17, D19, D20): from
every scheduler state, an item that is dirty is pushed, with the value it has, by one of the next `N` polls when
nothing else is made dirty: after `k < N` polls the next one sends its push frame and cleans it. -/
def Obligations.DirtyItemIsPushedWithinNPolls : Prop :=
  ∀ (s : State) (i : Nat) (it : Item), schedulerOk s → LineReturns s → s.items[i]? = some it → it.dirty = true →
    itemLenOk it →
    ∃ k t u, k < s.items.length ∧ polls 0x00 k s = .next t ∧ exec (.poll 0x00) t = .next u ∧
      t.config = s.config ∧ t.items[i]? = some it ∧ valueOf t i = valueOf s i ∧ PushedItem t u i it

/-- 42_poll_scheduler.md section 3 (rules R151, R152, the spec derives them by search; decisions D17, D19, D20):
whatever other items are made dirty before each poll, an item that stays dirty until it is pushed is pushed, with the
value it has, by one of the next `2N - 1` polls: poll `k` sends its push frame and cleans it. `marked k` says which
items the application makes dirty before poll `k`. -/
def Obligations.NoItemStarvesUnderRedirtying : Prop :=
  ∀ (run : Nat → State) (marked : Nat → List Bool) (i : Nat) (it : Item), schedulerOk (run 0) →
    (∀ k, (marked k).length = (run 0).items.length) →
    (∀ k < 2 * (run 0).items.length - 1, exec (.poll 0x00) (withMarks (marked k) (run k)) = .next (run (k + 1))) →
    (run 0).items[i]? = some it → it.dirty = true → itemLenOk it →
    ∃ k, k < 2 * (run 0).items.length - 1 ∧ (withMarks (marked k) (run k)).items[i]? = some it ∧
      (run k).config = (run 0).config ∧ valueOf (run k) i = valueOf (run 0) i ∧
      PushedItem (withMarks (marked k) (run k)) (run (k + 1)) i it
end

