-- ==== Sys2Proof/Laws/State.lean ====
section
/-! SUPPORT. One lemma per field per named update of the state. -/

namespace Sys2Proof.Machine

@[simp] theorem State.setItems_config (s : State) (v : List Item) : (s.setItems v).config = s.config := rfl
@[simp] theorem State.setItems_items (s : State) (v : List Item) : (s.setItems v).items = v := rfl
@[simp] theorem State.setItems_mem (s : State) (v : List Item) : (s.setItems v).mem = s.mem := rfl
@[simp] theorem State.setItems_rxBuf (s : State) (v : List Item) : (s.setItems v).rxBuf = s.rxBuf := rfl
@[simp] theorem State.setItems_lastRxTime (s : State) (v : List Item) : (s.setItems v).lastRxTime = s.lastRxTime := rfl
@[simp] theorem State.setItems_scanCursor (s : State) (v : List Item) : (s.setItems v).scanCursor = s.scanCursor := rfl
@[simp] theorem State.setItems_sweepInProgress (s : State) (v : List Item) : (s.setItems v).sweepInProgress = s.sweepInProgress := rfl
@[simp] theorem State.setItems_sweepStart (s : State) (v : List Item) : (s.setItems v).sweepStart = s.sweepStart := rfl
@[simp] theorem State.setItems_dir (s : State) (v : List Item) : (s.setItems v).dir = s.dir := rfl
@[simp] theorem State.setItems_trace (s : State) (v : List Item) : (s.setItems v).trace = s.trace := rfl
@[simp] theorem State.setItems_rxFifo (s : State) (v : List Item) : (s.setItems v).rxFifo = s.rxFifo := rfl
@[simp] theorem State.setItems_clock (s : State) (v : List Item) : (s.setItems v).clock = s.clock := rfl
@[simp] theorem State.setItems_inputs (s : State) (v : List Item) : (s.setItems v).inputs = s.inputs := rfl
@[simp] theorem State.setItems_link (s : State) (v : List Item) : (s.setItems v).link = s.link := rfl
@[simp] theorem State.setItems_result (s : State) (v : List Item) : (s.setItems v).result = s.result := rfl
@[simp] theorem State.setItems_started (s : State) (v : List Item) : (s.setItems v).started = s.started := rfl

@[simp] theorem State.setMem_config (s : State) (v : Memory) : (s.setMem v).config = s.config := rfl
@[simp] theorem State.setMem_items (s : State) (v : Memory) : (s.setMem v).items = s.items := rfl
@[simp] theorem State.setMem_mem (s : State) (v : Memory) : (s.setMem v).mem = v := rfl
@[simp] theorem State.setMem_rxBuf (s : State) (v : Memory) : (s.setMem v).rxBuf = s.rxBuf := rfl
@[simp] theorem State.setMem_lastRxTime (s : State) (v : Memory) : (s.setMem v).lastRxTime = s.lastRxTime := rfl
@[simp] theorem State.setMem_scanCursor (s : State) (v : Memory) : (s.setMem v).scanCursor = s.scanCursor := rfl
@[simp] theorem State.setMem_sweepInProgress (s : State) (v : Memory) : (s.setMem v).sweepInProgress = s.sweepInProgress := rfl
@[simp] theorem State.setMem_sweepStart (s : State) (v : Memory) : (s.setMem v).sweepStart = s.sweepStart := rfl
@[simp] theorem State.setMem_dir (s : State) (v : Memory) : (s.setMem v).dir = s.dir := rfl
@[simp] theorem State.setMem_trace (s : State) (v : Memory) : (s.setMem v).trace = s.trace := rfl
@[simp] theorem State.setMem_rxFifo (s : State) (v : Memory) : (s.setMem v).rxFifo = s.rxFifo := rfl
@[simp] theorem State.setMem_clock (s : State) (v : Memory) : (s.setMem v).clock = s.clock := rfl
@[simp] theorem State.setMem_inputs (s : State) (v : Memory) : (s.setMem v).inputs = s.inputs := rfl
@[simp] theorem State.setMem_link (s : State) (v : Memory) : (s.setMem v).link = s.link := rfl
@[simp] theorem State.setMem_result (s : State) (v : Memory) : (s.setMem v).result = s.result := rfl
@[simp] theorem State.setMem_started (s : State) (v : Memory) : (s.setMem v).started = s.started := rfl

@[simp] theorem State.setRxBuf_config (s : State) (v : List Byte) : (s.setRxBuf v).config = s.config := rfl
@[simp] theorem State.setRxBuf_items (s : State) (v : List Byte) : (s.setRxBuf v).items = s.items := rfl
@[simp] theorem State.setRxBuf_mem (s : State) (v : List Byte) : (s.setRxBuf v).mem = s.mem := rfl
@[simp] theorem State.setRxBuf_rxBuf (s : State) (v : List Byte) : (s.setRxBuf v).rxBuf = v := rfl
@[simp] theorem State.setRxBuf_lastRxTime (s : State) (v : List Byte) : (s.setRxBuf v).lastRxTime = s.lastRxTime := rfl
@[simp] theorem State.setRxBuf_scanCursor (s : State) (v : List Byte) : (s.setRxBuf v).scanCursor = s.scanCursor := rfl
@[simp] theorem State.setRxBuf_sweepInProgress (s : State) (v : List Byte) : (s.setRxBuf v).sweepInProgress = s.sweepInProgress := rfl
@[simp] theorem State.setRxBuf_sweepStart (s : State) (v : List Byte) : (s.setRxBuf v).sweepStart = s.sweepStart := rfl
@[simp] theorem State.setRxBuf_dir (s : State) (v : List Byte) : (s.setRxBuf v).dir = s.dir := rfl
@[simp] theorem State.setRxBuf_trace (s : State) (v : List Byte) : (s.setRxBuf v).trace = s.trace := rfl
@[simp] theorem State.setRxBuf_rxFifo (s : State) (v : List Byte) : (s.setRxBuf v).rxFifo = s.rxFifo := rfl
@[simp] theorem State.setRxBuf_clock (s : State) (v : List Byte) : (s.setRxBuf v).clock = s.clock := rfl
@[simp] theorem State.setRxBuf_inputs (s : State) (v : List Byte) : (s.setRxBuf v).inputs = s.inputs := rfl
@[simp] theorem State.setRxBuf_link (s : State) (v : List Byte) : (s.setRxBuf v).link = s.link := rfl
@[simp] theorem State.setRxBuf_result (s : State) (v : List Byte) : (s.setRxBuf v).result = s.result := rfl
@[simp] theorem State.setRxBuf_started (s : State) (v : List Byte) : (s.setRxBuf v).started = s.started := rfl

@[simp] theorem State.setLastRxTime_config (s : State) (v : Word32) : (s.setLastRxTime v).config = s.config := rfl
@[simp] theorem State.setLastRxTime_items (s : State) (v : Word32) : (s.setLastRxTime v).items = s.items := rfl
@[simp] theorem State.setLastRxTime_mem (s : State) (v : Word32) : (s.setLastRxTime v).mem = s.mem := rfl
@[simp] theorem State.setLastRxTime_rxBuf (s : State) (v : Word32) : (s.setLastRxTime v).rxBuf = s.rxBuf := rfl
@[simp] theorem State.setLastRxTime_lastRxTime (s : State) (v : Word32) : (s.setLastRxTime v).lastRxTime = v := rfl
@[simp] theorem State.setLastRxTime_scanCursor (s : State) (v : Word32) : (s.setLastRxTime v).scanCursor = s.scanCursor := rfl
@[simp] theorem State.setLastRxTime_sweepInProgress (s : State) (v : Word32) : (s.setLastRxTime v).sweepInProgress = s.sweepInProgress := rfl
@[simp] theorem State.setLastRxTime_sweepStart (s : State) (v : Word32) : (s.setLastRxTime v).sweepStart = s.sweepStart := rfl
@[simp] theorem State.setLastRxTime_dir (s : State) (v : Word32) : (s.setLastRxTime v).dir = s.dir := rfl
@[simp] theorem State.setLastRxTime_trace (s : State) (v : Word32) : (s.setLastRxTime v).trace = s.trace := rfl
@[simp] theorem State.setLastRxTime_rxFifo (s : State) (v : Word32) : (s.setLastRxTime v).rxFifo = s.rxFifo := rfl
@[simp] theorem State.setLastRxTime_clock (s : State) (v : Word32) : (s.setLastRxTime v).clock = s.clock := rfl
@[simp] theorem State.setLastRxTime_inputs (s : State) (v : Word32) : (s.setLastRxTime v).inputs = s.inputs := rfl
@[simp] theorem State.setLastRxTime_link (s : State) (v : Word32) : (s.setLastRxTime v).link = s.link := rfl
@[simp] theorem State.setLastRxTime_result (s : State) (v : Word32) : (s.setLastRxTime v).result = s.result := rfl
@[simp] theorem State.setLastRxTime_started (s : State) (v : Word32) : (s.setLastRxTime v).started = s.started := rfl

@[simp] theorem State.setScanCursor_config (s : State) (v : Nat) : (s.setScanCursor v).config = s.config := rfl
@[simp] theorem State.setScanCursor_items (s : State) (v : Nat) : (s.setScanCursor v).items = s.items := rfl
@[simp] theorem State.setScanCursor_mem (s : State) (v : Nat) : (s.setScanCursor v).mem = s.mem := rfl
@[simp] theorem State.setScanCursor_rxBuf (s : State) (v : Nat) : (s.setScanCursor v).rxBuf = s.rxBuf := rfl
@[simp] theorem State.setScanCursor_lastRxTime (s : State) (v : Nat) : (s.setScanCursor v).lastRxTime = s.lastRxTime := rfl
@[simp] theorem State.setScanCursor_scanCursor (s : State) (v : Nat) : (s.setScanCursor v).scanCursor = v := rfl
@[simp] theorem State.setScanCursor_sweepInProgress (s : State) (v : Nat) : (s.setScanCursor v).sweepInProgress = s.sweepInProgress := rfl
@[simp] theorem State.setScanCursor_sweepStart (s : State) (v : Nat) : (s.setScanCursor v).sweepStart = s.sweepStart := rfl
@[simp] theorem State.setScanCursor_dir (s : State) (v : Nat) : (s.setScanCursor v).dir = s.dir := rfl
@[simp] theorem State.setScanCursor_trace (s : State) (v : Nat) : (s.setScanCursor v).trace = s.trace := rfl
@[simp] theorem State.setScanCursor_rxFifo (s : State) (v : Nat) : (s.setScanCursor v).rxFifo = s.rxFifo := rfl
@[simp] theorem State.setScanCursor_clock (s : State) (v : Nat) : (s.setScanCursor v).clock = s.clock := rfl
@[simp] theorem State.setScanCursor_inputs (s : State) (v : Nat) : (s.setScanCursor v).inputs = s.inputs := rfl
@[simp] theorem State.setScanCursor_link (s : State) (v : Nat) : (s.setScanCursor v).link = s.link := rfl
@[simp] theorem State.setScanCursor_result (s : State) (v : Nat) : (s.setScanCursor v).result = s.result := rfl
@[simp] theorem State.setScanCursor_started (s : State) (v : Nat) : (s.setScanCursor v).started = s.started := rfl

@[simp] theorem State.setSweepInProgress_config (s : State) (v : Bool) : (s.setSweepInProgress v).config = s.config := rfl
@[simp] theorem State.setSweepInProgress_items (s : State) (v : Bool) : (s.setSweepInProgress v).items = s.items := rfl
@[simp] theorem State.setSweepInProgress_mem (s : State) (v : Bool) : (s.setSweepInProgress v).mem = s.mem := rfl
@[simp] theorem State.setSweepInProgress_rxBuf (s : State) (v : Bool) : (s.setSweepInProgress v).rxBuf = s.rxBuf := rfl
@[simp] theorem State.setSweepInProgress_lastRxTime (s : State) (v : Bool) : (s.setSweepInProgress v).lastRxTime = s.lastRxTime := rfl
@[simp] theorem State.setSweepInProgress_scanCursor (s : State) (v : Bool) : (s.setSweepInProgress v).scanCursor = s.scanCursor := rfl
@[simp] theorem State.setSweepInProgress_sweepInProgress (s : State) (v : Bool) : (s.setSweepInProgress v).sweepInProgress = v := rfl
@[simp] theorem State.setSweepInProgress_sweepStart (s : State) (v : Bool) : (s.setSweepInProgress v).sweepStart = s.sweepStart := rfl
@[simp] theorem State.setSweepInProgress_dir (s : State) (v : Bool) : (s.setSweepInProgress v).dir = s.dir := rfl
@[simp] theorem State.setSweepInProgress_trace (s : State) (v : Bool) : (s.setSweepInProgress v).trace = s.trace := rfl
@[simp] theorem State.setSweepInProgress_rxFifo (s : State) (v : Bool) : (s.setSweepInProgress v).rxFifo = s.rxFifo := rfl
@[simp] theorem State.setSweepInProgress_clock (s : State) (v : Bool) : (s.setSweepInProgress v).clock = s.clock := rfl
@[simp] theorem State.setSweepInProgress_inputs (s : State) (v : Bool) : (s.setSweepInProgress v).inputs = s.inputs := rfl
@[simp] theorem State.setSweepInProgress_link (s : State) (v : Bool) : (s.setSweepInProgress v).link = s.link := rfl
@[simp] theorem State.setSweepInProgress_result (s : State) (v : Bool) : (s.setSweepInProgress v).result = s.result := rfl
@[simp] theorem State.setSweepInProgress_started (s : State) (v : Bool) : (s.setSweepInProgress v).started = s.started := rfl

@[simp] theorem State.setSweepStart_config (s : State) (v : Nat) : (s.setSweepStart v).config = s.config := rfl
@[simp] theorem State.setSweepStart_items (s : State) (v : Nat) : (s.setSweepStart v).items = s.items := rfl
@[simp] theorem State.setSweepStart_mem (s : State) (v : Nat) : (s.setSweepStart v).mem = s.mem := rfl
@[simp] theorem State.setSweepStart_rxBuf (s : State) (v : Nat) : (s.setSweepStart v).rxBuf = s.rxBuf := rfl
@[simp] theorem State.setSweepStart_lastRxTime (s : State) (v : Nat) : (s.setSweepStart v).lastRxTime = s.lastRxTime := rfl
@[simp] theorem State.setSweepStart_scanCursor (s : State) (v : Nat) : (s.setSweepStart v).scanCursor = s.scanCursor := rfl
@[simp] theorem State.setSweepStart_sweepInProgress (s : State) (v : Nat) : (s.setSweepStart v).sweepInProgress = s.sweepInProgress := rfl
@[simp] theorem State.setSweepStart_sweepStart (s : State) (v : Nat) : (s.setSweepStart v).sweepStart = v := rfl
@[simp] theorem State.setSweepStart_dir (s : State) (v : Nat) : (s.setSweepStart v).dir = s.dir := rfl
@[simp] theorem State.setSweepStart_trace (s : State) (v : Nat) : (s.setSweepStart v).trace = s.trace := rfl
@[simp] theorem State.setSweepStart_rxFifo (s : State) (v : Nat) : (s.setSweepStart v).rxFifo = s.rxFifo := rfl
@[simp] theorem State.setSweepStart_clock (s : State) (v : Nat) : (s.setSweepStart v).clock = s.clock := rfl
@[simp] theorem State.setSweepStart_inputs (s : State) (v : Nat) : (s.setSweepStart v).inputs = s.inputs := rfl
@[simp] theorem State.setSweepStart_link (s : State) (v : Nat) : (s.setSweepStart v).link = s.link := rfl
@[simp] theorem State.setSweepStart_result (s : State) (v : Nat) : (s.setSweepStart v).result = s.result := rfl
@[simp] theorem State.setSweepStart_started (s : State) (v : Nat) : (s.setSweepStart v).started = s.started := rfl

@[simp] theorem State.setDir_config (s : State) (v : Bool) : (s.setDir v).config = s.config := rfl
@[simp] theorem State.setDir_items (s : State) (v : Bool) : (s.setDir v).items = s.items := rfl
@[simp] theorem State.setDir_mem (s : State) (v : Bool) : (s.setDir v).mem = s.mem := rfl
@[simp] theorem State.setDir_rxBuf (s : State) (v : Bool) : (s.setDir v).rxBuf = s.rxBuf := rfl
@[simp] theorem State.setDir_lastRxTime (s : State) (v : Bool) : (s.setDir v).lastRxTime = s.lastRxTime := rfl
@[simp] theorem State.setDir_scanCursor (s : State) (v : Bool) : (s.setDir v).scanCursor = s.scanCursor := rfl
@[simp] theorem State.setDir_sweepInProgress (s : State) (v : Bool) : (s.setDir v).sweepInProgress = s.sweepInProgress := rfl
@[simp] theorem State.setDir_sweepStart (s : State) (v : Bool) : (s.setDir v).sweepStart = s.sweepStart := rfl
@[simp] theorem State.setDir_dir (s : State) (v : Bool) : (s.setDir v).dir = v := rfl
@[simp] theorem State.setDir_trace (s : State) (v : Bool) : (s.setDir v).trace = s.trace := rfl
@[simp] theorem State.setDir_rxFifo (s : State) (v : Bool) : (s.setDir v).rxFifo = s.rxFifo := rfl
@[simp] theorem State.setDir_clock (s : State) (v : Bool) : (s.setDir v).clock = s.clock := rfl
@[simp] theorem State.setDir_inputs (s : State) (v : Bool) : (s.setDir v).inputs = s.inputs := rfl
@[simp] theorem State.setDir_link (s : State) (v : Bool) : (s.setDir v).link = s.link := rfl
@[simp] theorem State.setDir_result (s : State) (v : Bool) : (s.setDir v).result = s.result := rfl
@[simp] theorem State.setDir_started (s : State) (v : Bool) : (s.setDir v).started = s.started := rfl

@[simp] theorem State.emit_config (s : State) (v : TraceEvent) : (s.emit v).config = s.config := rfl
@[simp] theorem State.emit_items (s : State) (v : TraceEvent) : (s.emit v).items = s.items := rfl
@[simp] theorem State.emit_mem (s : State) (v : TraceEvent) : (s.emit v).mem = s.mem := rfl
@[simp] theorem State.emit_rxBuf (s : State) (v : TraceEvent) : (s.emit v).rxBuf = s.rxBuf := rfl
@[simp] theorem State.emit_lastRxTime (s : State) (v : TraceEvent) : (s.emit v).lastRxTime = s.lastRxTime := rfl
@[simp] theorem State.emit_scanCursor (s : State) (v : TraceEvent) : (s.emit v).scanCursor = s.scanCursor := rfl
@[simp] theorem State.emit_sweepInProgress (s : State) (v : TraceEvent) : (s.emit v).sweepInProgress = s.sweepInProgress := rfl
@[simp] theorem State.emit_sweepStart (s : State) (v : TraceEvent) : (s.emit v).sweepStart = s.sweepStart := rfl
@[simp] theorem State.emit_dir (s : State) (v : TraceEvent) : (s.emit v).dir = s.dir := rfl
@[simp] theorem State.emit_trace (s : State) (v : TraceEvent) : (s.emit v).trace = s.trace ++ [v] := rfl
@[simp] theorem State.emit_rxFifo (s : State) (v : TraceEvent) : (s.emit v).rxFifo = s.rxFifo := rfl
@[simp] theorem State.emit_clock (s : State) (v : TraceEvent) : (s.emit v).clock = s.clock := rfl
@[simp] theorem State.emit_inputs (s : State) (v : TraceEvent) : (s.emit v).inputs = s.inputs := rfl
@[simp] theorem State.emit_link (s : State) (v : TraceEvent) : (s.emit v).link = s.link := rfl
@[simp] theorem State.emit_result (s : State) (v : TraceEvent) : (s.emit v).result = s.result := rfl
@[simp] theorem State.emit_started (s : State) (v : TraceEvent) : (s.emit v).started = s.started := rfl

@[simp] theorem State.setRxFifo_config (s : State) (v : List Byte) : (s.setRxFifo v).config = s.config := rfl
@[simp] theorem State.setRxFifo_items (s : State) (v : List Byte) : (s.setRxFifo v).items = s.items := rfl
@[simp] theorem State.setRxFifo_mem (s : State) (v : List Byte) : (s.setRxFifo v).mem = s.mem := rfl
@[simp] theorem State.setRxFifo_rxBuf (s : State) (v : List Byte) : (s.setRxFifo v).rxBuf = s.rxBuf := rfl
@[simp] theorem State.setRxFifo_lastRxTime (s : State) (v : List Byte) : (s.setRxFifo v).lastRxTime = s.lastRxTime := rfl
@[simp] theorem State.setRxFifo_scanCursor (s : State) (v : List Byte) : (s.setRxFifo v).scanCursor = s.scanCursor := rfl
@[simp] theorem State.setRxFifo_sweepInProgress (s : State) (v : List Byte) : (s.setRxFifo v).sweepInProgress = s.sweepInProgress := rfl
@[simp] theorem State.setRxFifo_sweepStart (s : State) (v : List Byte) : (s.setRxFifo v).sweepStart = s.sweepStart := rfl
@[simp] theorem State.setRxFifo_dir (s : State) (v : List Byte) : (s.setRxFifo v).dir = s.dir := rfl
@[simp] theorem State.setRxFifo_trace (s : State) (v : List Byte) : (s.setRxFifo v).trace = s.trace := rfl
@[simp] theorem State.setRxFifo_rxFifo (s : State) (v : List Byte) : (s.setRxFifo v).rxFifo = v := rfl
@[simp] theorem State.setRxFifo_clock (s : State) (v : List Byte) : (s.setRxFifo v).clock = s.clock := rfl
@[simp] theorem State.setRxFifo_inputs (s : State) (v : List Byte) : (s.setRxFifo v).inputs = s.inputs := rfl
@[simp] theorem State.setRxFifo_link (s : State) (v : List Byte) : (s.setRxFifo v).link = s.link := rfl
@[simp] theorem State.setRxFifo_result (s : State) (v : List Byte) : (s.setRxFifo v).result = s.result := rfl
@[simp] theorem State.setRxFifo_started (s : State) (v : List Byte) : (s.setRxFifo v).started = s.started := rfl

@[simp] theorem State.setClock_config (s : State) (v : Word32) : (s.setClock v).config = s.config := rfl
@[simp] theorem State.setClock_items (s : State) (v : Word32) : (s.setClock v).items = s.items := rfl
@[simp] theorem State.setClock_mem (s : State) (v : Word32) : (s.setClock v).mem = s.mem := rfl
@[simp] theorem State.setClock_rxBuf (s : State) (v : Word32) : (s.setClock v).rxBuf = s.rxBuf := rfl
@[simp] theorem State.setClock_lastRxTime (s : State) (v : Word32) : (s.setClock v).lastRxTime = s.lastRxTime := rfl
@[simp] theorem State.setClock_scanCursor (s : State) (v : Word32) : (s.setClock v).scanCursor = s.scanCursor := rfl
@[simp] theorem State.setClock_sweepInProgress (s : State) (v : Word32) : (s.setClock v).sweepInProgress = s.sweepInProgress := rfl
@[simp] theorem State.setClock_sweepStart (s : State) (v : Word32) : (s.setClock v).sweepStart = s.sweepStart := rfl
@[simp] theorem State.setClock_dir (s : State) (v : Word32) : (s.setClock v).dir = s.dir := rfl
@[simp] theorem State.setClock_trace (s : State) (v : Word32) : (s.setClock v).trace = s.trace := rfl
@[simp] theorem State.setClock_rxFifo (s : State) (v : Word32) : (s.setClock v).rxFifo = s.rxFifo := rfl
@[simp] theorem State.setClock_clock (s : State) (v : Word32) : (s.setClock v).clock = v := rfl
@[simp] theorem State.setClock_inputs (s : State) (v : Word32) : (s.setClock v).inputs = s.inputs := rfl
@[simp] theorem State.setClock_link (s : State) (v : Word32) : (s.setClock v).link = s.link := rfl
@[simp] theorem State.setClock_result (s : State) (v : Word32) : (s.setClock v).result = s.result := rfl
@[simp] theorem State.setClock_started (s : State) (v : Word32) : (s.setClock v).started = s.started := rfl

@[simp] theorem State.setInputs_config (s : State) (v : List Input) : (s.setInputs v).config = s.config := rfl
@[simp] theorem State.setInputs_items (s : State) (v : List Input) : (s.setInputs v).items = s.items := rfl
@[simp] theorem State.setInputs_mem (s : State) (v : List Input) : (s.setInputs v).mem = s.mem := rfl
@[simp] theorem State.setInputs_rxBuf (s : State) (v : List Input) : (s.setInputs v).rxBuf = s.rxBuf := rfl
@[simp] theorem State.setInputs_lastRxTime (s : State) (v : List Input) : (s.setInputs v).lastRxTime = s.lastRxTime := rfl
@[simp] theorem State.setInputs_scanCursor (s : State) (v : List Input) : (s.setInputs v).scanCursor = s.scanCursor := rfl
@[simp] theorem State.setInputs_sweepInProgress (s : State) (v : List Input) : (s.setInputs v).sweepInProgress = s.sweepInProgress := rfl
@[simp] theorem State.setInputs_sweepStart (s : State) (v : List Input) : (s.setInputs v).sweepStart = s.sweepStart := rfl
@[simp] theorem State.setInputs_dir (s : State) (v : List Input) : (s.setInputs v).dir = s.dir := rfl
@[simp] theorem State.setInputs_trace (s : State) (v : List Input) : (s.setInputs v).trace = s.trace := rfl
@[simp] theorem State.setInputs_rxFifo (s : State) (v : List Input) : (s.setInputs v).rxFifo = s.rxFifo := rfl
@[simp] theorem State.setInputs_clock (s : State) (v : List Input) : (s.setInputs v).clock = s.clock := rfl
@[simp] theorem State.setInputs_inputs (s : State) (v : List Input) : (s.setInputs v).inputs = v := rfl
@[simp] theorem State.setInputs_link (s : State) (v : List Input) : (s.setInputs v).link = s.link := rfl
@[simp] theorem State.setInputs_result (s : State) (v : List Input) : (s.setInputs v).result = s.result := rfl
@[simp] theorem State.setInputs_started (s : State) (v : List Input) : (s.setInputs v).started = s.started := rfl

@[simp] theorem State.setLink_config (s : State) (v : List LinkChoice) : (s.setLink v).config = s.config := rfl
@[simp] theorem State.setLink_items (s : State) (v : List LinkChoice) : (s.setLink v).items = s.items := rfl
@[simp] theorem State.setLink_mem (s : State) (v : List LinkChoice) : (s.setLink v).mem = s.mem := rfl
@[simp] theorem State.setLink_rxBuf (s : State) (v : List LinkChoice) : (s.setLink v).rxBuf = s.rxBuf := rfl
@[simp] theorem State.setLink_lastRxTime (s : State) (v : List LinkChoice) : (s.setLink v).lastRxTime = s.lastRxTime := rfl
@[simp] theorem State.setLink_scanCursor (s : State) (v : List LinkChoice) : (s.setLink v).scanCursor = s.scanCursor := rfl
@[simp] theorem State.setLink_sweepInProgress (s : State) (v : List LinkChoice) : (s.setLink v).sweepInProgress = s.sweepInProgress := rfl
@[simp] theorem State.setLink_sweepStart (s : State) (v : List LinkChoice) : (s.setLink v).sweepStart = s.sweepStart := rfl
@[simp] theorem State.setLink_dir (s : State) (v : List LinkChoice) : (s.setLink v).dir = s.dir := rfl
@[simp] theorem State.setLink_trace (s : State) (v : List LinkChoice) : (s.setLink v).trace = s.trace := rfl
@[simp] theorem State.setLink_rxFifo (s : State) (v : List LinkChoice) : (s.setLink v).rxFifo = s.rxFifo := rfl
@[simp] theorem State.setLink_clock (s : State) (v : List LinkChoice) : (s.setLink v).clock = s.clock := rfl
@[simp] theorem State.setLink_inputs (s : State) (v : List LinkChoice) : (s.setLink v).inputs = s.inputs := rfl
@[simp] theorem State.setLink_link (s : State) (v : List LinkChoice) : (s.setLink v).link = v := rfl
@[simp] theorem State.setLink_result (s : State) (v : List LinkChoice) : (s.setLink v).result = s.result := rfl
@[simp] theorem State.setLink_started (s : State) (v : List LinkChoice) : (s.setLink v).started = s.started := rfl

@[simp] theorem State.setResult_config (s : State) (v : AppResult) : (s.setResult v).config = s.config := rfl
@[simp] theorem State.setResult_items (s : State) (v : AppResult) : (s.setResult v).items = s.items := rfl
@[simp] theorem State.setResult_mem (s : State) (v : AppResult) : (s.setResult v).mem = s.mem := rfl
@[simp] theorem State.setResult_rxBuf (s : State) (v : AppResult) : (s.setResult v).rxBuf = s.rxBuf := rfl
@[simp] theorem State.setResult_lastRxTime (s : State) (v : AppResult) : (s.setResult v).lastRxTime = s.lastRxTime := rfl
@[simp] theorem State.setResult_scanCursor (s : State) (v : AppResult) : (s.setResult v).scanCursor = s.scanCursor := rfl
@[simp] theorem State.setResult_sweepInProgress (s : State) (v : AppResult) : (s.setResult v).sweepInProgress = s.sweepInProgress := rfl
@[simp] theorem State.setResult_sweepStart (s : State) (v : AppResult) : (s.setResult v).sweepStart = s.sweepStart := rfl
@[simp] theorem State.setResult_dir (s : State) (v : AppResult) : (s.setResult v).dir = s.dir := rfl
@[simp] theorem State.setResult_trace (s : State) (v : AppResult) : (s.setResult v).trace = s.trace := rfl
@[simp] theorem State.setResult_rxFifo (s : State) (v : AppResult) : (s.setResult v).rxFifo = s.rxFifo := rfl
@[simp] theorem State.setResult_clock (s : State) (v : AppResult) : (s.setResult v).clock = s.clock := rfl
@[simp] theorem State.setResult_inputs (s : State) (v : AppResult) : (s.setResult v).inputs = s.inputs := rfl
@[simp] theorem State.setResult_link (s : State) (v : AppResult) : (s.setResult v).link = s.link := rfl
@[simp] theorem State.setResult_result (s : State) (v : AppResult) : (s.setResult v).result = v := rfl
@[simp] theorem State.setResult_started (s : State) (v : AppResult) : (s.setResult v).started = s.started := rfl

@[simp] theorem State.setStarted_config (s : State) : (s.setStarted).config = s.config := rfl
@[simp] theorem State.setStarted_items (s : State) : (s.setStarted).items = s.items := rfl
@[simp] theorem State.setStarted_mem (s : State) : (s.setStarted).mem = s.mem := rfl
@[simp] theorem State.setStarted_rxBuf (s : State) : (s.setStarted).rxBuf = s.rxBuf := rfl
@[simp] theorem State.setStarted_lastRxTime (s : State) : (s.setStarted).lastRxTime = s.lastRxTime := rfl
@[simp] theorem State.setStarted_scanCursor (s : State) : (s.setStarted).scanCursor = s.scanCursor := rfl
@[simp] theorem State.setStarted_sweepInProgress (s : State) : (s.setStarted).sweepInProgress = s.sweepInProgress := rfl
@[simp] theorem State.setStarted_sweepStart (s : State) : (s.setStarted).sweepStart = s.sweepStart := rfl
@[simp] theorem State.setStarted_dir (s : State) : (s.setStarted).dir = s.dir := rfl
@[simp] theorem State.setStarted_trace (s : State) : (s.setStarted).trace = s.trace := rfl
@[simp] theorem State.setStarted_rxFifo (s : State) : (s.setStarted).rxFifo = s.rxFifo := rfl
@[simp] theorem State.setStarted_clock (s : State) : (s.setStarted).clock = s.clock := rfl
@[simp] theorem State.setStarted_inputs (s : State) : (s.setStarted).inputs = s.inputs := rfl
@[simp] theorem State.setStarted_link (s : State) : (s.setStarted).link = s.link := rfl
@[simp] theorem State.setStarted_result (s : State) : (s.setStarted).result = s.result := rfl
@[simp] theorem State.setStarted_started (s : State) : (s.setStarted).started = true := rfl

end Sys2Proof.Machine
end

