-- ==== Sys2Proof/Laws/Link.lean ====
section
/-! SUPPORT. What one `Send` does, said once: it ends in `afterSend` at an allowed time, or it stops for the reason
`sendStop` names. -/

namespace Sys2Proof.Machine

@[simp] theorem afterSend_config (f : Frame) (time clk : Word32) (s : State) :
    (afterSend f time clk s).config = s.config := rfl
@[simp] theorem afterSend_items (f : Frame) (time clk : Word32) (s : State) :
    (afterSend f time clk s).items = s.items := rfl
@[simp] theorem afterSend_mem (f : Frame) (time clk : Word32) (s : State) :
    (afterSend f time clk s).mem = s.mem := rfl
@[simp] theorem afterSend_rxBuf (f : Frame) (time clk : Word32) (s : State) :
    (afterSend f time clk s).rxBuf = s.rxBuf := rfl
@[simp] theorem afterSend_lastRxTime (f : Frame) (time clk : Word32) (s : State) :
    (afterSend f time clk s).lastRxTime = s.lastRxTime := rfl
@[simp] theorem afterSend_scanCursor (f : Frame) (time clk : Word32) (s : State) :
    (afterSend f time clk s).scanCursor = s.scanCursor := rfl
@[simp] theorem afterSend_sweepInProgress (f : Frame) (time clk : Word32) (s : State) :
    (afterSend f time clk s).sweepInProgress = s.sweepInProgress := rfl
@[simp] theorem afterSend_sweepStart (f : Frame) (time clk : Word32) (s : State) :
    (afterSend f time clk s).sweepStart = s.sweepStart := rfl
@[simp] theorem afterSend_dir (f : Frame) (time clk : Word32) (s : State) :
    (afterSend f time clk s).dir = if s.config.flowCtrl then false else s.dir := rfl
@[simp] theorem afterSend_trace (f : Frame) (time clk : Word32) (s : State) :
    (afterSend f time clk s).trace = s.trace ++ linkEvents s.config f time := rfl
@[simp] theorem afterSend_rxFifo (f : Frame) (time clk : Word32) (s : State) :
    (afterSend f time clk s).rxFifo = s.rxFifo := rfl
@[simp] theorem afterSend_clock (f : Frame) (time clk : Word32) (s : State) :
    (afterSend f time clk s).clock = clk := rfl
@[simp] theorem afterSend_inputs (f : Frame) (time clk : Word32) (s : State) :
    (afterSend f time clk s).inputs = s.inputs := rfl
@[simp] theorem afterSend_link (f : Frame) (time clk : Word32) (s : State) :
    (afterSend f time clk s).link = s.link.tail := rfl
@[simp] theorem afterSend_result (f : Frame) (time clk : Word32) (s : State) :
    (afterSend f time clk s).result = s.result := rfl
@[simp] theorem afterSend_started (f : Frame) (time clk : Word32) (s : State) :
    (afterSend f time clk s).started = s.started := rfl

@[simp] theorem andThen_next (s : State) (k : State → Result) : andThen (.next s) k = k s := rfl

@[simp] theorem andThen_fault (e : Fault) (k : State → Result) : andThen (.fault e) k = .fault e := rfl

@[simp] theorem andThen_refused (e : Refusal) (k : State → Result) : andThen (.refused e) k = .refused e := rfl

/-- A sequence answers a next state only through a next state of its first part. -/
theorem andThen_eq_next {r : Result} {k : State → Result} {t : State} :
    andThen r k = .next t ↔ ∃ u, r = .next u ∧ k u = .next t := by
  cases r <;> simp

/-- A sequence stops with a fault only where one of its parts does. -/
theorem andThen_eq_fault {r : Result} {k : State → Result} {e : Fault} :
    andThen r k = .fault e ↔ r = .fault e ∨ ∃ u, r = .next u ∧ k u = .fault e := by
  cases r <;> simp

/-- A sequence is refused only where one of its parts is. -/
theorem andThen_eq_refused {r : Result} {k : State → Result} {e : Refusal} :
    andThen r k = .refused e ↔ r = .refused e ∨ ∃ u, r = .next u ∧ k u = .refused e := by
  cases r <;> simp

/-- The delay changes the clock only, and the reading it leads to is allowed if the one before was. -/
theorem latency_spec (c : LinkChoice) (s : State) (h : txTimeOk s s.clock = true) :
    ∃ t, latency c s = s.setClock t ∧ txTimeOk s t = true := by
  unfold latency
  split
  · exact ⟨_, rfl, by assumption⟩
  · exact ⟨s.clock, rfl, h⟩

/-- The time at which the turnaround wait ends is allowed. -/
theorem turnaround_target_ok (s : State) : txTimeOk s (s.lastRxTime + s.config.turnMs) = true := by
  refine decide_eq_true (Or.inr ?_)
  have : s.lastRxTime + s.config.turnMs - s.lastRxTime = s.config.turnMs := by
    rw [BitVec.add_comm]
    exact BitVec.add_sub_cancel _ _
  rw [elapsed, this]
  exact BitVec.le_refl _

/-- Without a wait the clock's own reading is allowed. -/
theorem no_wait_ok (s : State) (h : mustWait s = false) : txTimeOk s s.clock = true := by
  have h' := of_decide_eq_false h
  refine decide_eq_true ?_
  by_cases h0 : s.config.turnMs = 0
  · exact Or.inl h0
  · refine Or.inr (BitVec.not_lt.1 fun hlt => h' ⟨?_, hlt⟩)
    exact (BitVec.pos_iff_ne_zero _).2 h0

/-- The turnaround wait changes the clock only, to an allowed reading; or the clock has stopped. -/
theorem turnaround_spec (c : LinkChoice) (s : State) :
    (mustWait s = true ∧ c = .clockStops ∧ turnaround c s = .fault .clockStopped) ∨
    (¬ (mustWait s = true ∧ c = .clockStops) ∧ ∃ t, turnaround c s = .next (s.setClock t) ∧ txTimeOk s t = true) := by
  unfold turnaround
  by_cases hw : mustWait s = true
  · by_cases hc : c = .clockStops
    · simp [hw, hc]
    · simp only [hw, hc, if_true, if_false]
      exact Or.inr ⟨by simp, _, rfl, turnaround_target_ok s⟩
  · rw [Bool.not_eq_true] at hw
    simp only [hw]
    exact Or.inr ⟨by simp, s.clock, rfl, no_wait_ok s hw⟩

/-- The write ends in the events of rules R203 and R204, or the flush hangs. -/
theorem writeOut_spec (c : LinkChoice) (f : Frame) (s : State) :
    (s.config.flowCtrl = true ∧ flushHangs c = true ∧ writeOut c f s = .fault .flushNeverReturns) ∨
    (¬ (s.config.flowCtrl = true ∧ flushHangs c = true) ∧ ∃ clk, writeOut c f s = .next
      { s with
        trace := s.trace ++ linkEvents s.config f s.clock
        dir := if s.config.flowCtrl then false else s.dir
        clock := clk }) := by
  unfold writeOut linkEvents
  by_cases hf : s.config.flowCtrl = true
  · cases c <;>
      simp [hf, flushHangs, flush, writeFrame, assertDirection, deassertDirection, State.emit, State.setDir,
        State.setClock]
  · simp [hf, writeFrame, State.emit]

/-- `Send`, said once (rules R200 to R205): a stop where `sendStop` names one, else `afterSend` at an allowed time. -/
theorem send_spec (f : Frame) (s : State) :
    (∃ e, sendStop s = some e ∧ send f s = .fault e) ∨
    (sendStop s = none ∧ ∃ time clk, txTimeOk s time = true ∧ send f s = .next (afterSend f time clk s)) := by
  have key : ∀ t, txTimeOk (s.setLink s.link.tail) t = txTimeOk s t := fun _ => rfl
  have hw : mustWait (s.setLink s.link.tail) = mustWait s := rfl
  unfold send sendStop
  rcases turnaround_spec (linkChoice s) (s.setLink s.link.tail) with ⟨h1, h2, h3⟩ | ⟨h1, t, h2, h3⟩
  · rw [hw] at h1
    exact Or.inl ⟨.clockStopped, by simp [h1, h2], by rw [h3]; rfl⟩
  · rw [hw] at h1
    have h1' : (mustWait s && linkChoice s == .clockStops) = false := by
      rw [← Bool.not_eq_true, Bool.and_eq_true, beq_iff_eq]
      exact h1
    rw [h2, andThen_next, h1']
    obtain ⟨t', h4, h5⟩ := latency_spec (linkChoice s) ((s.setLink s.link.tail).setClock t) h3
    rw [h4]
    rcases writeOut_spec (linkChoice s) f (((s.setLink s.link.tail).setClock t).setClock t') with
      ⟨g1, g2, g3⟩ | ⟨g1, clk, g2⟩
    · have g1' : s.config.flowCtrl = true := g1
      exact Or.inl ⟨.flushNeverReturns, by simp [g1', g2], g3⟩
    · have g1' : (s.config.flowCtrl && flushHangs (linkChoice s)) = false := by
        rw [← Bool.not_eq_true, Bool.and_eq_true]
        exact g1
      exact Or.inr ⟨by simp [g1'], t', clk, h5, g2⟩

/-- If `Send` answers a next state, it is `afterSend` at an allowed time. -/
theorem send_eq_next {f : Frame} {s t : State} (h : send f s = .next t) :
    ∃ time clk, txTimeOk s time = true ∧ t = afterSend f time clk s := by
  rcases send_spec f s with ⟨e, _, he⟩ | ⟨_, time, clk, h1, h2⟩
  · rw [h] at he
    cases he
  · rw [h] at h2
    exact ⟨time, clk, h1, by injection h2⟩

/-- `Send` answers a next state exactly where nothing stops it. -/
theorem send_live {f : Frame} {s : State} (h : linkLive s) :
    ∃ time clk, txTimeOk s time = true ∧ send f s = .next (afterSend f time clk s) := by
  rcases send_spec f s with ⟨e, he, _⟩ | ⟨_, h⟩
  · rw [h] at he
    cases he
  · exact h

/-- `Send` is never refused. -/
theorem send_not_refused (f : Frame) (s : State) (e : Refusal) : send f s ≠ .refused e := by
  rcases send_spec f s with ⟨_, _, h⟩ | ⟨_, _, _, _, h⟩ <;> simp [h]

/-- A fault of `Send` is the one `sendStop` names. -/
theorem send_eq_fault {f : Frame} {s : State} {e : Fault} (h : send f s = .fault e) : sendStop s = some e := by
  rcases send_spec f s with ⟨e', h1, h2⟩ | ⟨_, _, _, _, h2⟩
  · rw [h] at h2
    injection h2 with h2
    rw [h2]
    exact h1
  · rw [h] at h2
    cases h2

end Sys2Proof.Machine
end

