-- ==== Sys2Proof/Laws/Memory.lean ====
section
/-! SUPPORT. The laws of the payload store: what a read after a write gives, and that every operation keeps the
canonical form. -/

namespace Sys2Proof.Machine

@[simp] theorem Memory.wf_nil : Memory.wf [] := ⟨List.Pairwise.nil, by simp⟩

@[simp] theorem Memory.read_nil (a : Nat) : Memory.read [] a = unlistedByte := rfl

/-- An address below every listed one is unlisted. -/
theorem Memory.read_unlisted : ∀ (m : Memory) (a : Nat), (∀ c ∈ m, a < c.1) → Memory.read m a = unlistedByte
  | [], _, _ => rfl
  | (k, v) :: m, a, h => by
    have hk : a < k := h (k, v) (by simp)
    simp only [Memory.read, if_neg (by omega : ¬ k = a)]
    exact Memory.read_unlisted m a fun c hc => h c (by simp [hc])

theorem Memory.wf_cons {c : Host.Cell} {m : Memory} :
    Memory.wf (c :: m) ↔ (∀ d ∈ m, c.1 < d.1) ∧ c.2 ≠ unlistedByte ∧ Memory.wf m := by
  simp only [Memory.wf, List.pairwise_cons, List.mem_cons, forall_eq_or_imp]
  tauto

/-- Every entry after a write is the written one or an old one. -/
theorem Memory.mem_write : ∀ (m : Memory) (a : Nat) (b : Byte) (c : Host.Cell),
    c ∈ Memory.write m a b → (c = (a, b) ∧ b ≠ unlistedByte) ∨ c ∈ m
  | [], a, b, c, h => by
    simp only [Memory.write] at h
    split at h <;> simp_all
  | (k, v) :: m, a, b, c, h => by
    simp only [Memory.write] at h
    split at h
    · split at h <;> simp_all
    · split at h
      · rename_i hak
        split at h
        · exact Or.inr (by simp [h])
        · rename_i hb
          rcases List.mem_cons.1 h with h | h
          · exact Or.inl ⟨h, hb⟩
          · exact Or.inr (by simp [h])
      · rcases List.mem_cons.1 h with h | h
        · exact Or.inr (by simp [h])
        · rcases Memory.mem_write m a b c h with h | h
          · exact Or.inl h
          · exact Or.inr (by simp [h])

/-- A write keeps the canonical form. -/
theorem Memory.write_wf : ∀ (m : Memory) (a : Nat) (b : Byte), Memory.wf m → Memory.wf (Memory.write m a b)
  | [], a, b, _ => by
    simp only [Memory.write]
    split <;> simp_all [Memory.wf]
  | (k, v) :: m, a, b, h => by
    obtain ⟨hlt, hv, hm⟩ := Memory.wf_cons.1 h
    simp only [Memory.write]
    split
    · split
      · exact h
      · rename_i hak hb
        refine Memory.wf_cons.2 ⟨?_, hb, h⟩
        intro d hd
        rcases List.mem_cons.1 hd with rfl | hd
        · exact hak
        · exact Nat.lt_trans hak (hlt d hd)
    · split
      · rename_i hak
        split
        · exact hm
        · rename_i hb
          exact Memory.wf_cons.2 ⟨fun d hd => by simpa [hak] using hlt d hd, hb, hm⟩
      · refine Memory.wf_cons.2 ⟨?_, hv, Memory.write_wf m a b hm⟩
        intro d hd
        rcases Memory.mem_write m a b d hd with ⟨rfl, _⟩ | hd
        · show k < a
          omega
        · exact hlt d hd

/-- A read after a write gives the written byte at its address and the old byte elsewhere. -/
theorem Memory.read_write : ∀ (m : Memory) (a : Nat) (b : Byte) (a' : Nat), Memory.wf m →
    Memory.read (Memory.write m a b) a' = if a' = a then b else Memory.read m a'
  | [], a, b, a', _ => by
    simp only [Memory.write]
    split <;> rename_i hb
    · simp [hb]
    · by_cases h : a = a' <;> simp [Memory.read, h, eq_comm]
  | (k, v) :: m, a, b, a', h => by
    obtain ⟨hlt, _, hm⟩ := Memory.wf_cons.1 h
    simp only [Memory.write]
    split
    · rename_i hak
      have hun : Memory.read ((k, v) :: m) a = unlistedByte := by
        refine Memory.read_unlisted _ _ fun c hc => ?_
        rcases List.mem_cons.1 hc with rfl | hc
        · exact hak
        · exact Nat.lt_trans hak (hlt c hc)
      by_cases haa : a' = a
      · subst haa
        split <;> rename_i hb
        · simp [hun, hb]
        · simp [Memory.read]
      · rw [if_neg haa]
        split
        · rfl
        · rw [Memory.read, if_neg (fun e => haa e.symm)]
    · split
      · rename_i hak
        subst hak
        by_cases haa : a' = a
        · subst haa
          split <;> rename_i hb
          · rw [if_pos rfl, hb]
            exact Memory.read_unlisted m _ hlt
          · simp [Memory.read]
        · have hne : ¬ a = a' := fun e => haa e.symm
          rw [if_neg haa]
          split <;> simp [Memory.read, hne]
      · rename_i hlt' hne
        by_cases hka : k = a'
        · subst hka
          have : ¬ k = a := fun e => hne e.symm
          simp [Memory.read, this]
        · simp only [Memory.read, if_neg hka]
          exact Memory.read_write m a b a' hm

/-- A multi-byte write keeps the canonical form. -/
theorem Memory.writeBytes_wf : ∀ (bs : List Byte) (m : Memory) (a : Nat), Memory.wf m →
    Memory.wf (Memory.writeBytes m a bs)
  | [], _, _, h => h
  | b :: bs, m, a, h => Memory.writeBytes_wf bs _ _ (Memory.write_wf m a b h)

/-- A read after a multi-byte write: the written byte inside the written range, the old byte outside it. -/
theorem Memory.read_writeBytes : ∀ (bs : List Byte) (m : Memory) (a a' : Nat), Memory.wf m →
    Memory.read (Memory.writeBytes m a bs) a' =
      if a ≤ a' ∧ a' < a + bs.length then bs.getD (a' - a) 0 else Memory.read m a'
  | [], m, a, a', _ => by
    rw [Memory.writeBytes, if_neg (by simp)]
  | b :: bs, m, a, a', h => by
    rw [Memory.writeBytes, Memory.read_writeBytes bs _ _ _ (Memory.write_wf m a b h), Memory.read_write m a b a' h]
    by_cases h0 : a' = a
    · subst h0
      simp
    · by_cases h1 : a + 1 ≤ a' ∧ a' < a + 1 + bs.length
      · have h2 : a ≤ a' ∧ a' < a + (b :: bs).length := by simp; omega
        rw [if_pos h1, if_pos h2, show a' - a = (a' - (a + 1)) + 1 by omega]
        simp
      · have h2 : ¬ (a ≤ a' ∧ a' < a + (b :: bs).length) := by simp; omega
        rw [if_neg h1, if_neg h2, if_neg h0]

/-- Every entry after a multi-byte write has an address in the written range or was there before. -/
theorem Memory.mem_writeBytes : ∀ (bs : List Byte) (m : Memory) (a : Nat) (c : Host.Cell),
    c ∈ Memory.writeBytes m a bs → (a ≤ c.1 ∧ c.1 < a + bs.length) ∨ c ∈ m
  | [], _, _, _, h => Or.inr h
  | b :: bs, m, a, c, h => by
    rcases Memory.mem_writeBytes bs _ _ c h with h | h
    · exact Or.inl (by simp; omega)
    · rcases Memory.mem_write m a b c h with ⟨rfl, _⟩ | h
      · exact Or.inl (by simp)
      · exact Or.inr h

/-- The bytes read where a sequence was written are the sequence. -/
theorem Memory.readBytes_writeBytes (m : Memory) (a : Nat) (bs : List Byte) (h : Memory.wf m) :
    Memory.readBytes (Memory.writeBytes m a bs) a bs.length = bs := by
  apply List.ext_getElem
  · simp [Memory.readBytes]
  · intro n h1 h2
    simp [Memory.readBytes, Memory.read_writeBytes bs m a (a + n) h, h2]

@[simp] theorem Memory.readBytes_length (m : Memory) (a n : Nat) : (Memory.readBytes m a n).length = n := by
  simp [Memory.readBytes]

end Sys2Proof.Machine
end

