-- ==== Sys2Proof/Laws/Ops.lean ====
section
/-! SUPPORT. What each shared operation does, said once: the flag updates, the item table, the encoder's two
constructors, raising an outcome. -/

namespace Sys2Proof.Machine

/-! ### Flags -/

@[simp] theorem setDirty_config (i : Nat) (b : Bool) (s : State) : (setDirty i b s).config = s.config := rfl
@[simp] theorem setDirty_items (i : Nat) (b : Bool) (s : State) : (setDirty i b s).items = s.items.modify i fun it => { it with dirty := b } := rfl
@[simp] theorem setDirty_mem (i : Nat) (b : Bool) (s : State) : (setDirty i b s).mem = s.mem := rfl
@[simp] theorem setDirty_rxBuf (i : Nat) (b : Bool) (s : State) : (setDirty i b s).rxBuf = s.rxBuf := rfl
@[simp] theorem setDirty_lastRxTime (i : Nat) (b : Bool) (s : State) : (setDirty i b s).lastRxTime = s.lastRxTime := rfl
@[simp] theorem setDirty_scanCursor (i : Nat) (b : Bool) (s : State) : (setDirty i b s).scanCursor = s.scanCursor := rfl
@[simp] theorem setDirty_sweepInProgress (i : Nat) (b : Bool) (s : State) : (setDirty i b s).sweepInProgress = s.sweepInProgress := rfl
@[simp] theorem setDirty_sweepStart (i : Nat) (b : Bool) (s : State) : (setDirty i b s).sweepStart = s.sweepStart := rfl
@[simp] theorem setDirty_dir (i : Nat) (b : Bool) (s : State) : (setDirty i b s).dir = s.dir := rfl
@[simp] theorem setDirty_trace (i : Nat) (b : Bool) (s : State) : (setDirty i b s).trace = s.trace := rfl
@[simp] theorem setDirty_rxFifo (i : Nat) (b : Bool) (s : State) : (setDirty i b s).rxFifo = s.rxFifo := rfl
@[simp] theorem setDirty_clock (i : Nat) (b : Bool) (s : State) : (setDirty i b s).clock = s.clock := rfl
@[simp] theorem setDirty_inputs (i : Nat) (b : Bool) (s : State) : (setDirty i b s).inputs = s.inputs := rfl
@[simp] theorem setDirty_link (i : Nat) (b : Bool) (s : State) : (setDirty i b s).link = s.link := rfl
@[simp] theorem setDirty_result (i : Nat) (b : Bool) (s : State) : (setDirty i b s).result = s.result := rfl
@[simp] theorem setDirty_started (i : Nat) (b : Bool) (s : State) : (setDirty i b s).started = s.started := rfl

@[simp] theorem forceAllDirty_config (s : State) : (forceAllDirty s).config = s.config := rfl
@[simp] theorem forceAllDirty_items (s : State) : (forceAllDirty s).items = s.items.map fun it => { it with dirty := true } := rfl
@[simp] theorem forceAllDirty_mem (s : State) : (forceAllDirty s).mem = s.mem := rfl
@[simp] theorem forceAllDirty_rxBuf (s : State) : (forceAllDirty s).rxBuf = s.rxBuf := rfl
@[simp] theorem forceAllDirty_lastRxTime (s : State) : (forceAllDirty s).lastRxTime = s.lastRxTime := rfl
@[simp] theorem forceAllDirty_scanCursor (s : State) : (forceAllDirty s).scanCursor = s.scanCursor := rfl
@[simp] theorem forceAllDirty_sweepInProgress (s : State) : (forceAllDirty s).sweepInProgress = s.sweepInProgress := rfl
@[simp] theorem forceAllDirty_sweepStart (s : State) : (forceAllDirty s).sweepStart = s.sweepStart := rfl
@[simp] theorem forceAllDirty_dir (s : State) : (forceAllDirty s).dir = s.dir := rfl
@[simp] theorem forceAllDirty_trace (s : State) : (forceAllDirty s).trace = s.trace := rfl
@[simp] theorem forceAllDirty_rxFifo (s : State) : (forceAllDirty s).rxFifo = s.rxFifo := rfl
@[simp] theorem forceAllDirty_clock (s : State) : (forceAllDirty s).clock = s.clock := rfl
@[simp] theorem forceAllDirty_inputs (s : State) : (forceAllDirty s).inputs = s.inputs := rfl
@[simp] theorem forceAllDirty_link (s : State) : (forceAllDirty s).link = s.link := rfl
@[simp] theorem forceAllDirty_result (s : State) : (forceAllDirty s).result = s.result := rfl
@[simp] theorem forceAllDirty_started (s : State) : (forceAllDirty s).started = s.started := rfl

@[simp] theorem storeValue_config (i : Nat) (v : List Byte) (s : State) : (storeValue i v s).config = s.config := rfl
@[simp] theorem storeValue_items (i : Nat) (v : List Byte) (s : State) : (storeValue i v s).items = s.items.modify i fun it => { it with len := v.length } := rfl
@[simp] theorem storeValue_mem (i : Nat) (v : List Byte) (s : State) : (storeValue i v s).mem = Memory.writeBytes s.mem (payloadBase i) v := rfl
@[simp] theorem storeValue_rxBuf (i : Nat) (v : List Byte) (s : State) : (storeValue i v s).rxBuf = s.rxBuf := rfl
@[simp] theorem storeValue_lastRxTime (i : Nat) (v : List Byte) (s : State) : (storeValue i v s).lastRxTime = s.lastRxTime := rfl
@[simp] theorem storeValue_scanCursor (i : Nat) (v : List Byte) (s : State) : (storeValue i v s).scanCursor = s.scanCursor := rfl
@[simp] theorem storeValue_sweepInProgress (i : Nat) (v : List Byte) (s : State) : (storeValue i v s).sweepInProgress = s.sweepInProgress := rfl
@[simp] theorem storeValue_sweepStart (i : Nat) (v : List Byte) (s : State) : (storeValue i v s).sweepStart = s.sweepStart := rfl
@[simp] theorem storeValue_dir (i : Nat) (v : List Byte) (s : State) : (storeValue i v s).dir = s.dir := rfl
@[simp] theorem storeValue_trace (i : Nat) (v : List Byte) (s : State) : (storeValue i v s).trace = s.trace := rfl
@[simp] theorem storeValue_rxFifo (i : Nat) (v : List Byte) (s : State) : (storeValue i v s).rxFifo = s.rxFifo := rfl
@[simp] theorem storeValue_clock (i : Nat) (v : List Byte) (s : State) : (storeValue i v s).clock = s.clock := rfl
@[simp] theorem storeValue_inputs (i : Nat) (v : List Byte) (s : State) : (storeValue i v s).inputs = s.inputs := rfl
@[simp] theorem storeValue_link (i : Nat) (v : List Byte) (s : State) : (storeValue i v s).link = s.link := rfl
@[simp] theorem storeValue_result (i : Nat) (v : List Byte) (s : State) : (storeValue i v s).result = s.result := rfl
@[simp] theorem storeValue_started (i : Nat) (v : List Byte) (s : State) : (storeValue i v s).started = s.started := rfl

/-- Beginning a sweep writes the sweep's two registers only. -/
theorem beginSweep_eq (s : State) : beginSweep s =
    { s with
      sweepStart := if s.sweepInProgress then s.sweepStart else s.scanCursor
      sweepInProgress := true } := by
  cases h : s.sweepInProgress <;> cases s <;> simp_all [beginSweep, State.setSweepStart, State.setSweepInProgress]

/-- After a push the cursor and the sweep flag are written, nothing else. -/
theorem advanceSweep_eq (j : Nat) (s : State) : advanceSweep j s =
    { s with
      scanCursor := if (j + 1) % s.items.length = s.sweepStart then (s.sweepStart + 1) % s.items.length
        else (j + 1) % s.items.length
      sweepInProgress := if (j + 1) % s.items.length = s.sweepStart then false else s.sweepInProgress } := by
  unfold advanceSweep endSweep
  split <;> rfl

/-- The end of a sweep writes the cursor and the sweep flag only. -/
theorem endSweep_eq (s : State) : endSweep s =
    { s with scanCursor := (s.sweepStart + 1) % s.items.length, sweepInProgress := false } := rfl

/-- The flag of an item after a `dirty` write. -/
theorem dirtyAt_setDirty (items : List Item) (i j : Nat) (b : Bool) :
    dirtyAt (items.modify i fun it => { it with dirty := b }) j =
      if i = j ∧ j < items.length then b else dirtyAt items j := by
  unfold dirtyAt
  rw [List.getElem?_modify]
  by_cases hij : i = j
  · by_cases hj : j < items.length
    · simp [hij, hj]
    · simp [hij, hj]
  · simp [hij]

/-- Storing a value leaves every flag. -/
theorem dirtyAt_setLen (items : List Item) (i j n : Nat) :
    dirtyAt (items.modify i fun it => { it with len := n }) j = dirtyAt items j := by
  unfold dirtyAt
  rw [List.getElem?_modify]
  by_cases hij : i = j
  · cases h : items[j]? <;> simp [hij]
  · simp [hij]

/-- Every flag after the forced poll's marking. -/
theorem dirtyAt_forceAll (items : List Item) (j : Nat) :
    dirtyAt (items.map fun it => { it with dirty := true }) j = decide (j < items.length) := by
  unfold dirtyAt
  rw [List.getElem?_map]
  by_cases hj : j < items.length
  · simp [hj]
  · simp [hj]

/-- Only an index of the table is dirty. -/
theorem dirtyAt_lt {items : List Item} {j : Nat} (h : dirtyAt items j = true) : j < items.length := by
  by_contra hj
  simp [dirtyAt, List.getElem?_eq_none (Nat.le_of_not_lt hj)] at h

/-! ### Lookup (rule R28) -/

/-- A hit is an item with the address, and the first one. -/
theorem lookup_some {a : Word16} {items : List Item} {i : Nat} (h : lookup a items = some i) :
    ∃ it, items[i]? = some it ∧ it.addr = a ∧ ∀ j < i, ∀ it', items[j]? = some it' → it'.addr ≠ a := by
  rw [lookup, List.findIdx?_eq_some_iff_getElem] at h
  obtain ⟨hi, h1, h2⟩ := h
  refine ⟨items[i], List.getElem?_eq_getElem hi, by simpa using h1, ?_⟩
  intro j hj it' hit'
  obtain ⟨hj', rfl⟩ := List.getElem?_eq_some_iff.1 hit'
  simpa using h2 j hj

/-- A miss means that no item has the address. -/
theorem lookup_none {a : Word16} {items : List Item} : lookup a items = none ↔ ∀ it ∈ items, it.addr ≠ a := by
  simp [lookup, List.findIdx?_eq_none_iff]

/-- With distinct addresses an item is found by its own address. -/
theorem lookup_self {items : List Item} (h : items.Pairwise fun a b => a.addr ≠ b.addr) {i : Nat} {it : Item}
    (hi : items[i]? = some it) : lookup it.addr items = some i := by
  obtain ⟨hlt, rfl⟩ := List.getElem?_eq_some_iff.1 hi
  rw [lookup, List.findIdx?_eq_some_iff_getElem]
  refine ⟨hlt, by simp, fun j hj => ?_⟩
  have := List.pairwise_iff_getElem.1 h j i (Nat.lt_trans hj hlt) hlt hj
  simpa using this

/-! ### Sending -/

/-- What `transmit` does: one `Send` of the encoded frame. -/
theorem transmit_eq_next {i : Instr} {s t : State} (h : transmit i s = .next t) :
    ∃ time clk, txTimeOk s time = true ∧ t = afterSend (encode s.config.devAddr i) time clk s :=
  send_eq_next h

theorem transmit_live {s : State} (i : Instr) (h : linkLive s) :
    ∃ time clk, txTimeOk s time = true ∧
      transmit i s = .next (afterSend (encode s.config.devAddr i) time clk s) :=
  send_live h

/-- What `Push(i)` does (rules R180, R181). -/
theorem pushItem_eq_next {i : Nat} {s t : State} (h : pushItem i s = .next t) :
    (s.items[i]? = none ∧ t = s) ∨
    ∃ it time clk, s.items[i]? = some it ∧ txTimeOk s time = true ∧
      t = afterSend (encode s.config.devAddr (pushFrame i it s.mem)) time clk (setDirty i false s) := by
  unfold pushItem at h
  split at h
  · rename_i hn
    exact Or.inl ⟨hn, by injection h with h; exact h.symm⟩
  · rename_i it hi
    obtain ⟨time, clk, h1, h2⟩ := transmit_eq_next h
    exact Or.inr ⟨it, time, clk, hi, h1, h2⟩

theorem pushItem_live {i : Nat} {s : State} {it : Item} (hi : s.items[i]? = some it) (h : linkLive s) :
    ∃ time clk, txTimeOk s time = true ∧ pushItem i s =
      .next (afterSend (encode s.config.devAddr (pushFrame i it s.mem)) time clk (setDirty i false s)) := by
  obtain ⟨time, clk, h1, h2⟩ := transmit_live (pushFrame i it s.mem) (s := setDirty i false s) h
  exact ⟨time, clk, h1, by simpa [pushItem, hi] using h2⟩

/-- What raising an outcome does (rule R230): its response if enabled, else nothing. -/
theorem raise_eq_next {x : Exceptional} {s t : State} (h : raise x s = .next t) :
    (responseEnabled s.config x = false ∧ t = s) ∨
    (responseEnabled s.config x = true ∧ ∃ time clk, txTimeOk s time = true ∧
      t = afterSend (encode s.config.devAddr (responseOf x)) time clk s) := by
  unfold raise at h
  split at h
  · rename_i he
    exact Or.inr ⟨he, transmit_eq_next h⟩
  · rename_i he
    exact Or.inl ⟨by simpa using he, by injection h with h; exact h.symm⟩

theorem raise_live {x : Exceptional} {s : State} (he : responseEnabled s.config x = true) (h : linkLive s) :
    ∃ time clk, txTimeOk s time = true ∧
      raise x s = .next (afterSend (encode s.config.devAddr (responseOf x)) time clk s) := by
  obtain ⟨time, clk, h1, h2⟩ := transmit_live (responseOf x) h
  exact ⟨time, clk, h1, by simpa [raise, he] using h2⟩

/-- What sending a push frame by itself does: the item with its address is clean, the frame is sent. -/
theorem report_eq_next {addr : Word16} {i : Instr} {s t : State} (h : report addr i s = .next t) :
    ∃ time clk, txTimeOk s time = true ∧ t = afterSend (encode s.config.devAddr i) time clk
      ((lookup addr s.items).elim s fun k => setDirty k false s) := by
  unfold report at h
  cases hl : lookup addr s.items with
  | none =>
    simp only [hl] at h
    exact transmit_eq_next h
  | some k =>
    simp only [hl] at h
    exact transmit_eq_next (s := setDirty k false s) h

/-- What a write command does (rule R160). -/
theorem writeItem_eq_next {cmd : WriteCmd} {addr : Word16} {data : List Byte} {s t : State}
    (h : writeItem cmd addr data s = .next t) :
    (lookup addr s.items = none ∧ raise .addressNotFound s = .next t) ∨
    (∃ i it, lookup addr s.items = some i ∧ s.items[i]? = some it ∧ storeFits cmd data it = false ∧
      raise .writeRejected s = .next t) ∨
    (∃ i it, lookup addr s.items = some i ∧ s.items[i]? = some it ∧ storeFits cmd data it = true ∧
      transmit .ack ((storeValue i data s).emit (.onWrite i)) = .next t) := by
  unfold writeItem at h
  split at h
  · rename_i hl
    exact Or.inl ⟨hl, h⟩
  · rename_i i hl
    obtain ⟨it, hi, -⟩ := lookup_some hl
    rw [hi] at h
    right
    simp only at h
    split at h
    · rename_i hf
      exact Or.inr ⟨i, it, hl, hi, hf, h⟩
    · rename_i hf
      exact Or.inl ⟨i, it, hl, hi, by simpa using hf, h⟩

/-- What the scan does (rules R143 to R148). -/
theorem scan_eq_next {s t : State} (h : scan s = .next t) :
    (s.items = [] ∧ raise .noNewData s = .next t) ∨
    (s.items ≠ [] ∧ ∃ j u, scanTarget (beginSweep s) = some j ∧ pushItem j (beginSweep s) = .next u ∧
      t = advanceSweep j u) ∨
    (s.items ≠ [] ∧ ∃ u, scanTarget (beginSweep s) = none ∧ raise .noNewData (beginSweep s) = .next u ∧
      t = endSweep u) := by
  unfold scan at h
  split at h
  · rename_i he
    exact Or.inl ⟨by simpa using he, h⟩
  · rename_i he
    right
    split at h
    · rename_i j hj
      obtain ⟨u, h1, h2⟩ := andThen_eq_next.1 h
      exact Or.inl ⟨by simpa using he, j, u, hj, h1, by injection h2 with h2; exact h2.symm⟩
    · rename_i hj
      obtain ⟨u, h1, h2⟩ := andThen_eq_next.1 h
      exact Or.inr ⟨by simpa using he, u, hj, h1, by injection h2 with h2; exact h2.symm⟩

/-- The walk of the scan finds a dirty item. -/
theorem scanFrom_dirty {items : List Item} {start : Nat} : ∀ {fuel j k : Nat},
    scanFrom items start fuel j = some k → dirtyAt items k = true
  | 0, _, _, h => by simp [scanFrom] at h
  | fuel + 1, j, k, h => by
    unfold scanFrom at h
    split at h
    · rename_i hd
      injection h with h
      exact h ▸ hd
    · split at h
      · cases h
      · exact scanFrom_dirty h

end Sys2Proof.Machine
end

