-- ==== Sys2Proof/Laws/Engine.lean ====
section
/-! SUPPORT. What the poll step, each local operation and one step of the machine can do, said once. -/

namespace Sys2Proof.Machine

/-! ### The poll step -/

/-- A drain writes the buffer, the queue and the time stamp only (rule R121). -/
theorem drain_eq (s : State) : drain s =
    { s with
      rxBuf := s.rxBuf ++ s.rxFifo.take (drainCount s)
      rxFifo := s.rxFifo.drop (drainCount s)
      lastRxTime := if 0 < drainCount s then s.clock else s.lastRxTime } := by
  unfold drain
  split <;> rfl

/-- A drain keeps the bound of the buffer (rule R22). -/
theorem drain_bound (s : State) (h : s.rxBuf.length ≤ s.config.rxCap) :
    (drain s).rxBuf.length ≤ s.config.rxCap := by
  rw [drain_eq]
  simp only [List.length_append, List.length_take, drainCount]
  omega

/-- The stale check writes the buffer only (rule R122). -/
theorem staleCheck_eq (s : State) : staleCheck s =
    { s with
      rxBuf := if s.rxBuf ≠ [] ∧ s.config.staleMs < elapsed s.clock s.lastRxTime then [] else s.rxBuf } := by
  unfold staleCheck
  split <;> rfl

/-- The recognition loop only drops bytes from the front (rules R124, R132). -/
theorem recognise_suffix (dev : Byte) : ∀ bs : List Byte, (recognise dev bs).2 <:+ bs
  | [] => List.suffix_refl _
  | b :: bs => by
    have ih := recognise_suffix dev bs
    unfold recognise
    split <;> first | exact List.suffix_refl _ | exact ih.trans (List.suffix_cons b bs)

/-- A frame the loop ends in is what the decoder reads from the buffer the loop leaves (rule R129). -/
theorem recognise_frame (dev : Byte) {i : Instr} : ∀ bs : List Byte, (recognise dev bs).1 = .frame i →
    ∃ rest, decode dev (recognise dev bs).2 = .ok (i, rest)
  | [], h => by simp [recognise] at h
  | b :: bs, h => by
    have ih := recognise_frame dev (i := i) bs
    unfold recognise at h ⊢
    split at h <;> rename_i hd <;> simp_all

/-- A CRC failure the loop ends in is what the decoder reports of the buffer the loop leaves (rule R130). -/
theorem recognise_badCrc (dev : Byte) {c : Byte} : ∀ bs : List Byte, (recognise dev bs).1 = .badCrc c →
    decode dev (recognise dev bs).2 = .error (.crcMismatch c)
  | [], h => by simp [recognise] at h
  | b :: bs, h => by
    have ih := recognise_badCrc dev (c := c) bs
    unfold recognise at h ⊢
    split at h <;> rename_i hd <;> simp_all

/-- The state dispatched from differs from the one before in the receive side only. -/
theorem received_eq (s : State) : received s =
    { s with
      rxBuf := (received s).rxBuf
      rxFifo := s.rxFifo.drop (drainCount s)
      lastRxTime := if 0 < drainCount s then s.clock else s.lastRxTime } := by
  unfold received
  rw [staleCheck_eq, drain_eq]
  rfl

/-- The buffer dispatched from keeps the bound (rule R22). -/
theorem received_bound (s : State) (h : s.rxBuf.length ≤ s.config.rxCap) :
    (received s).rxBuf.length ≤ s.config.rxCap := by
  have h1 := drain_bound s h
  have h2 : (staleCheck (drain s)).rxBuf.length ≤ s.config.rxCap := by
    rw [staleCheck_eq]
    simp only
    split
    · simp
    · exact h1
  exact Nat.le_trans (recognise_suffix _ _).length_le h2

/-- What a poll step can do: wait, answer a CRC failure, or run an instruction and clear the buffer. -/
theorem pollStep_eq_next {s t : State} (h : pollStep s = .next t) :
    (recognised s = .wait ∧ t = received s) ∨
    (∃ c u, recognised s = .badCrc c ∧ raise (.crcMismatch c) (received s) = .next u ∧ t = u.setRxBuf []) ∨
    (∃ i u, recognised s = .frame i ∧ exec i (received s) = .next u ∧ t = u.setRxBuf []) := by
  unfold pollStep settle at h
  split at h
  · rename_i hr
    exact Or.inl ⟨hr, by injection h with h; exact h.symm⟩
  · rename_i c hr
    obtain ⟨u, h1, h2⟩ := andThen_eq_next.1 h
    exact Or.inr (Or.inl ⟨c, u, hr, h1, by injection h2 with h2; exact h2.symm⟩)
  · rename_i i hr
    obtain ⟨u, h1, h2⟩ := andThen_eq_next.1 h
    exact Or.inr (Or.inr ⟨i, u, hr, h1, by injection h2 with h2; exact h2.symm⟩)

/-! ### Local operations -/

/-- What `SetValue` can do (rule R217). -/
theorem setValue_eq_next {h : Nat} {value : AppValue} {s t : State} (e : setValue h value s = .next t) :
    t = s.setResult .refused ∨
    ∃ it v, s.items[h]? = some it ∧ valueFits it v = true ∧ t = (writeLocal h v s).setResult .done := by
  unfold setValue refuse at e
  split at e
  · exact Or.inl (by injection e with e; exact e.symm)
  · rename_i it hi
    split at e
    · exact Or.inl (by injection e with e; exact e.symm)
    · rename_i v hv
      split at e
      · rename_i hf
        exact Or.inr ⟨it, v, hi, hf, by injection e with e; exact e.symm⟩
      · exact Or.inl (by injection e with e; exact e.symm)

/-- What `SetValueIfChanged` can do (rule R218). -/
theorem setValueIfChanged_eq_next {h : Nat} {value : AppValue} {s t : State}
    (e : setValueIfChanged h value s = .next t) :
    (∃ r, t = s.setResult r) ∨
    ∃ it v, s.items[h]? = some it ∧ valueFits it v = true ∧ v ≠ valueOf s h ∧
      t = (writeLocal h v s).setResult (.changed true) := by
  unfold setValueIfChanged refuse at e
  split at e
  · exact Or.inl ⟨_, by injection e with e; exact e.symm⟩
  · rename_i it hi
    split at e
    · exact Or.inl ⟨_, by injection e with e; exact e.symm⟩
    · rename_i v hv
      split at e
      · rename_i hf
        split at e
        · exact Or.inl ⟨_, by injection e with e; exact e.symm⟩
        · rename_i hne
          exact Or.inr ⟨it, v, hi, hf, hne, by injection e with e; exact e.symm⟩
      · exact Or.inl ⟨_, by injection e with e; exact e.symm⟩

/-- What `GetValue` can do (rule R219): only its answer changes. -/
theorem getValue_eq_next {h : Nat} {s t : State} (e : getValue h s = .next t) : ∃ r, t = s.setResult r := by
  unfold getValue refuse at e
  split at e <;> exact ⟨_, by injection e with e; exact e.symm⟩

/-- A property that every `Push(i)` carries on holds after a run of pushes. -/
theorem pushEach_induct {P : State → State → Prop} (refl : ∀ s, P s s)
    (step : ∀ i s u t, dirtyAt s.items i = true → pushItem i s = .next u → P u t → P s t) :
    ∀ (is : List Nat) (s t : State), pushEach is s = .next t → P s t
  | [], s, t, h => by
    injection h with h
    exact h ▸ refl s
  | i :: is, s, t, h => by
    unfold pushEach at h
    split at h
    · rename_i hd
      obtain ⟨u, h1, h2⟩ := andThen_eq_next.1 h
      exact step i s u t hd h1 (pushEach_induct refl step is u t h2)
    · exact pushEach_induct refl step is s t h

/-- What `PushAllDirty` can do (rule R221). -/
theorem pushAllDirty_eq_next {s t : State} (h : pushAllDirty s = .next t) :
    (s.config.fullDuplex = false ∧ t = s.setResult .refused) ∨
    (s.config.fullDuplex = true ∧ s.items.any (fun it => it.dirty) = true ∧
      ∃ u, pushEach (List.range s.items.length) s = .next u ∧ t = u.setResult .done) ∨
    (s.config.fullDuplex = true ∧ s.items.any (fun it => it.dirty) = false ∧
      ∃ u, raise .noNewData s = .next u ∧ t = u.setResult .done) := by
  unfold pushAllDirty refuse at h
  split at h
  · rename_i hf
    obtain ⟨u, h1, h2⟩ := andThen_eq_next.1 h
    split at h1
    · rename_i hd
      exact Or.inr (Or.inl ⟨hf, hd, u, h1, by injection h2 with h2; exact h2.symm⟩)
    · rename_i hd
      exact Or.inr (Or.inr ⟨hf, by simpa using hd, u, h1, by injection h2 with h2; exact h2.symm⟩)
  · rename_i hf
    exact Or.inl ⟨by simpa using hf, by injection h with h; exact h.symm⟩

/-- What `SendGreeting` can do (rule R222). -/
theorem sendGreeting_eq_next {s t : State} (h : sendGreeting s = .next t) :
    (s.config.fullDuplex = false ∧ t = s.setResult .refused) ∨
    (s.config.fullDuplex = true ∧ ∃ u, transmit .hello s = .next u ∧ t = u.setResult .done) := by
  unfold sendGreeting refuse at h
  split at h
  · rename_i hf
    obtain ⟨u, h1, h2⟩ := andThen_eq_next.1 h
    exact Or.inr ⟨hf, u, h1, by injection h2 with h2; exact h2.symm⟩
  · rename_i hf
    exact Or.inl ⟨by simpa using hf, by injection h with h; exact h.symm⟩

/-- What `RegisterItem` can do (rule R215): append one item with a zero payload. -/
theorem registerItem_eq_next {address : Int} {kind : Kind} {capacity : Nat} {s t : State}
    (h : registerItem address kind capacity s = .next t) :
    registerProblem address kind capacity s = none ∧
    t = ((s.setItems (s.items ++ [newItem address kind capacity])).setMem
      (Memory.writeBytes s.mem (payloadBase s.items.length)
        (List.replicate (newItem address kind capacity).cap 0))).setResult (.handle s.items.length) := by
  unfold registerItem at h
  split at h
  · cases h
  · rename_i hp
    exact ⟨hp, by injection h with h; exact h.symm⟩

/-! ### One step -/

/-- A step answers a next state only with a valid configuration, and then by running its event. -/
theorem step_eq_next {s t : State} (h : step s = .next t) :
    configOk s.config s.items ∧ runInput (nextInput s) (s.setInputs s.inputs.tail) = .next t := by
  unfold step engineStep at h
  split at h
  · rename_i hc
    exact ⟨hc, h⟩
  · cases h

/-- With a valid configuration a step is its event, run. -/
theorem step_of_config {s : State} (h : configOk s.config s.items) :
    step s = runInput (nextInput s) (s.setInputs s.inputs.tail) := by
  unfold step engineStep
  rw [if_pos h]

end Sys2Proof.Machine
end

