-- ==== Sys2Proof/Laws/PerInstr.lean ====
section
/-! SUPPORT. Facts about every instruction, one lemma per constructor. -/

-- one lemma after the other: many short proofs at once ask for more threads than a limited memory gives
set_option Elab.async false

namespace Sys2Proof.Laws.FrameShape

open Sys2Proof.Machine

/-- A well-formed instruction's frame has 4 to 65542 bytes (rules R80, R86): the device address, the command byte, the
body and the CRC of all of them. -/
def Statement (i : Instr) : Prop :=
  i.wellFormed = true → ∀ dev : Byte,
    4 ≤ (encode dev i).length ∧ (encode dev i).length ≤ 65542 ∧
      encode dev i = dev :: i.code :: (i.body ++ [crc8 (dev :: i.code :: i.body)])

/-- The bounds of a body are the bounds of its frame. -/
theorem of_body {i : Instr} (h : i.wellFormed = true → 1 ≤ i.body.length ∧ i.body.length ≤ 65539) :
    Statement i := by
  intro hw dev
  obtain ⟨h1, h2⟩ := h hw
  refine ⟨?_, ?_, rfl⟩ <;> simp only [encode, withCrc, List.length_append, List.length_cons, List.length_nil] <;>
    omega

theorem poll (flag : Byte) : Statement (.poll flag) :=
  of_body fun _ => by simp [Instr.body]

theorem read (addr : Word16) : Statement (.read addr) :=
  of_body fun _ => by simp [Instr.body, addrBody]

theorem wrb (addr : Word16) (d0 : Byte) : Statement (.wrb addr d0) :=
  of_body fun _ => by simp [Instr.body, addrBody]

theorem wrw (addr : Word16) (d0 d1 : Byte) : Statement (.wrw addr d0 d1) :=
  of_body fun _ => by simp [Instr.body, addrBody]

theorem wrd (addr : Word16) (d0 d1 d2 d3 : Byte) : Statement (.wrd addr d0 d1 d2 d3) :=
  of_body fun _ => by simp [Instr.body, addrBody]

theorem wrc (addr : Word16) (d0 d1 d2 d3 : Byte) : Statement (.wrc addr d0 d1 d2 d3) :=
  of_body fun _ => by simp [Instr.body, addrBody]

theorem wra (addr : Word16) (data : List Byte) : Statement (.wra addr data) :=
  of_body fun h => by
    have : data.length ≤ 65535 := by simpa [Instr.wellFormed] using h
    simp only [Instr.body, arrayBody, addrBody, List.length_cons]
    omega

theorem pushb (addr : Word16) (d0 : Byte) : Statement (.pushb addr d0) :=
  of_body fun _ => by simp [Instr.body, addrBody]

theorem pushw (addr : Word16) (d0 d1 : Byte) : Statement (.pushw addr d0 d1) :=
  of_body fun _ => by simp [Instr.body, addrBody]

theorem pushd (addr : Word16) (d0 d1 d2 d3 : Byte) : Statement (.pushd addr d0 d1 d2 d3) :=
  of_body fun _ => by simp [Instr.body, addrBody]

theorem pushc (addr : Word16) (d0 d1 d2 d3 : Byte) : Statement (.pushc addr d0 d1 d2 d3) :=
  of_body fun _ => by simp [Instr.body, addrBody]

theorem pusha (addr : Word16) (data : List Byte) : Statement (.pusha addr data) :=
  of_body fun h => by
    have : data.length ≤ 65535 := by simpa [Instr.wellFormed] using h
    simp only [Instr.body, arrayBody, addrBody, List.length_cons]
    omega

theorem ack : Statement (.ack) :=
  of_body fun _ => by simp [Instr.body]

theorem badcrc (c : Byte) : Statement (.badcrc c) :=
  of_body fun _ => by simp [Instr.body]

theorem nodata : Statement (.nodata) :=
  of_body fun _ => by simp [Instr.body]

theorem badflag : Statement (.badflag) :=
  of_body fun _ => by simp [Instr.body]

theorem noaddr : Statement (.noaddr) :=
  of_body fun _ => by simp [Instr.body]

theorem wrrej : Statement (.wrrej) :=
  of_body fun _ => by simp [Instr.body]

theorem hello : Statement (.hello) :=
  of_body fun _ => by simp [Instr.body]

end Sys2Proof.Laws.FrameShape
end

