-- ==== Sys2Proof/Tests/Slice0.lean ====
section
/-! SUPPORT. The model's own tests. Every expected value comes from the spec: the frames and effects of
95_test_vectors.md (V1 to V61), or a check a rule names. The last part shows, for every obligation that has
hypotheses, a state and operands that meet all of them. -/

-- one test after the other: many short proofs at once ask for more threads than a limited memory gives
set_option Elab.async false

namespace Sys2Proof.Tests

open Sys2Proof.Machine Sys2Proof.Stmt

/-! ### Small states -/

/-- One item of the test table. -/
def item (addr : Word16) (kind : Kind) (cap : Nat) : Item :=
  { addr := addr, kind := kind, cap := cap, len := (klen kind).getD 0, dirty := false }

/-- The device of 95_test_vectors.md section 2.3: six items, after reset. -/
def device : State :=
  State.resetWith Config.default
    [item 0x0000 .byte 1, item 0x0010 .word 2, item 0x0002 .dword 4, item 0x0003 .rgb 4, item 0x0004 .array 4,
      item 0x0005 .float 4]

/-- Three Byte items at addresses 0, 1, 2 with the flags given, all other state as after reset. -/
def trio (d0 d1 d2 : Bool) : State :=
  State.setItems (State.resetWith Config.default [])
    [{ item 0 .byte 1 with dirty := d0 }, { item 1 .byte 1 with dirty := d1 }, { item 2 .byte 1 with dirty := d2 }]

/-- The frame lies in the receive queue, at clock reading 100. -/
def heard (f : Frame) (s : State) : State := (s.setRxFifo f).setClock 100

/-- The state under another configuration. -/
def under (config : Config) (s : State) : State := { s with config := config }

/-- The Array at address 9 is for the host to write. -/
def hostWrites (rxCap : Nat) : State := under { Config.default with hostArrays := [9], rxCap := rxCap } device

/-- All options on: both gated responses, full duplex, flow control, a turnaround delay of 5 ms. -/
def allOn : Config :=
  { Config.default with turnMs := 5, enCrcResp := true, enFlagResp := true, fullDuplex := true, flowCtrl := true }

/-- What a step added to the trace of a state with an empty trace; nothing for a stop. -/
def traceOf (r : Result) : List TraceEvent :=
  match r with
  | .next t => t.trace
  | .fault _ => []
  | .refused _ => []

/-- The value of item `i` in the next state; nothing for a stop. -/
def valueIn (i : Nat) (r : Result) : List Byte :=
  match r with
  | .next t => valueOf t i
  | .fault _ => []
  | .refused _ => []

/-- The scheduler and the flags in the next state. -/
def schedulerIn (r : Result) : Option (Nat × Bool × Nat × List Bool) :=
  match r with
  | .next t => some (t.scanCursor, t.sweepInProgress, t.sweepStart, t.items.map fun it => it.dirty)
  | .fault _ => none
  | .refused _ => none

/-- The receive buffer in the next state. -/
def bufferIn (r : Result) : Option (List Byte) :=
  match r with
  | .next t => some t.rxBuf
  | .fault _ => none
  | .refused _ => none

/-- The answer of the last local operation in the next state. -/
def answerIn (r : Result) : Option AppResult :=
  match r with
  | .next t => some t.result
  | .fault _ => none
  | .refused _ => none

/-- Why the machine stopped, if it did. -/
def refusedWith (r : Result) : Option Refusal :=
  match r with
  | .next _ => none
  | .fault _ => none
  | .refused e => some e

/-! ### Well-formedness -/

theorem test_wra_of_65536_bytes_is_ill_formed (b : Byte) :
    (Instr.wra 0 (List.replicate 65536 b)).wellFormed = false := by
  show decide ((List.replicate 65536 b).length ≤ 65535) = false
  rw [List.length_replicate]
  rfl

theorem test_pusha_of_65536_bytes_is_ill_formed (b : Byte) :
    (Instr.pusha 0 (List.replicate 65536 b)).wellFormed = false := by
  show decide ((List.replicate 65536 b).length ≤ 65535) = false
  rw [List.length_replicate]
  rfl

theorem test_wra_of_65535_bytes_is_well_formed (b : Byte) :
    (Instr.wra 0 (List.replicate 65535 b)).wellFormed = true := by
  show decide ((List.replicate 65535 b).length ≤ 65535) = true
  rw [List.length_replicate]
  rfl

/-! ### Decoding, from the written-out frames of V1, V3, V3a, V3b (rule R93 for the push frames) -/

theorem test_decode_poll : decode 0x01 [0x01, 0xD0, 0x00, 0xD1] = .ok (.poll 0x00, []) := by decide +kernel

theorem test_decode_fpoll : decode 0x01 [0x01, 0xD0, 0x01, 0xD6] = .ok (Instr.fpoll, []) := by decide +kernel

theorem test_decode_read : decode 0x01 [0x01, 0xD1, 0x34, 0x12, 0x81] = .ok (.read 0x1234, []) := by decide +kernel

theorem test_decode_wrb : decode 0x01 [0x01, 0xDA, 0x34, 0x12, 0xFF, 0xF7] = .ok (.wrb 0x1234 0xFF, []) := by decide +kernel

theorem test_decode_wrw :
    decode 0x01 [0x01, 0xDB, 0x10, 0x00, 0x34, 0x12, 0x4F] = .ok (.wrw 0x0010 0x34 0x12, []) := by decide +kernel

theorem test_decode_wrd : decode 0x01 [0x01, 0xDC, 0x02, 0x00, 0x78, 0x56, 0x34, 0x12, 0xCA] =
    .ok (.wrd 0x0002 0x78 0x56 0x34 0x12, []) := by decide +kernel

theorem test_decode_wrc : decode 0x01 [0x01, 0xDD, 0x03, 0x00, 0x10, 0x20, 0x30, 0x00, 0xE9] =
    .ok (.wrc 0x0003 0x10 0x20 0x30 0x00, []) := by decide +kernel

theorem test_decode_wra : decode 0x01 [0x01, 0xDE, 0x04, 0x00, 0x03, 0x00, 0xAA, 0xBB, 0xCC, 0x71] =
    .ok (.wra 0x0004 [0xAA, 0xBB, 0xCC], []) := by decide +kernel

theorem test_decode_wra_empty :
    decode 0x01 [0x01, 0xDE, 0x04, 0x00, 0x00, 0x00, 0x4E] = .ok (.wra 0x0004 [], []) := by decide +kernel

theorem test_decode_pushb :
    decodeReply 0x01 [0x01, 0xDA, 0x00, 0x00, 0x07, 0x26] = .ok (.pushb 0x0000 0x07, []) := by decide +kernel

theorem test_decode_pushw :
    decodeReply 0x01 [0x01, 0xDB, 0x10, 0x00, 0x34, 0x12, 0x4F] = .ok (.pushw 0x0010 0x34 0x12, []) := by decide +kernel

theorem test_decode_pushd : decodeReply 0x01 [0x01, 0xDC, 0x05, 0x00, 0x00, 0x00, 0x80, 0x3F, 0x16] =
    .ok (.pushd 0x0005 0x00 0x00 0x80 0x3F, []) := by decide +kernel

theorem test_decode_pushc : decodeReply 0x01 [0x01, 0xDD, 0x03, 0x00, 0x01, 0x02, 0x03, 0x04, 0xD7] =
    .ok (.pushc 0x0003 0x01 0x02 0x03 0x04, []) := by decide +kernel

theorem test_decode_pusha : decodeReply 0x01 [0x01, 0xDE, 0x04, 0x00, 0x02, 0x00, 0xAA, 0xBB, 0x13] =
    .ok (.pusha 0x0004 [0xAA, 0xBB], []) := by decide +kernel

theorem test_decode_ack : decodeReply 0x2A [0x2A, 0xE0, 0x00, 0x87] = .ok (.ack, []) := by decide +kernel

theorem test_decode_badcrc : decodeReply 0x01 [0x01, 0xE1, 0xD1, 0x04] = .ok (.badcrc 0xD1, []) := by decide +kernel

theorem test_decode_nodata : decodeReply 0x2A [0x2A, 0xE2, 0x00, 0xAD] = .ok (.nodata, []) := by decide +kernel

theorem test_decode_badflag : decodeReply 0x2A [0x2A, 0xE3, 0x00, 0xB8] = .ok (.badflag, []) := by decide +kernel

theorem test_decode_noaddr : decodeReply 0x2A [0x2A, 0xE4, 0x00, 0xD3] = .ok (.noaddr, []) := by decide +kernel

theorem test_decode_wrrej : decodeReply 0x2A [0x2A, 0xE5, 0x00, 0xC6] = .ok (.wrrej, []) := by decide +kernel

theorem test_decode_hello : decodeReply 0x2A [0x2A, 0xE6, 0x00, 0xF9] = .ok (.hello, []) := by decide +kernel

theorem test_decode_rejects_each_check :
    decode 0x01 [0x01, 0xD0, 0x00] = .error .tooShort ∧
      decode 0x01 [0x02, 0xD0, 0x00, 0xD1] = .error .foreignAddress ∧
      decode 0x01 [0x01, 0xE0, 0x00, 0x28] = .error (.unknownCommand 0xE0) ∧
      decode 0x01 [0x01, 0xDE, 0x04, 0x00, 0x03] = .error .incomplete ∧
      decode 0x01 [0x01, 0xD0, 0x00, 0x00] = .error (.crcMismatch 0xD1) ∧
      decodeReply 0x01 [0x01, 0xE0, 0x01, 0x2F] = .error (.reservedData 0x01) := by decide +kernel

/-- The table's numbering: the command byte alone, and a word with the poll flag and an address above it. -/
theorem test_decode_table_words :
    decodeTableWord 8 0xD0 = some (.poll 0x00) ∧ decodeTableWord 16 0x01D0 = some Instr.fpoll ∧
      decodeTableWord 24 0x1234D1 = some (.read 0x1234) ∧ decodeTableWord 8 0xE6 = some .hello := by decide +kernel

/-! ### The CRC (V21) -/

theorem test_crc8_check_value : crc8 [0x31, 0x32, 0x33, 0x34, 0x35, 0x36, 0x37, 0x38, 0x39] = 0xF4 := by decide +kernel

theorem test_crc8_small : crc8 [] = 0x00 ∧ crc8 [0x01] = 0x07 ∧ crc8 [0xFF, 0xFF] = 0x24 := by decide +kernel

/-! ### One step per instruction -/

/-- V47b, first row. -/
theorem test_poll_pushes_the_first_dirty_item :
    schedulerIn (step (heard [0x01, 0xD0, 0x00, 0xD1] (trio false true false))) =
      some (2, true, 0, [false, false, false]) := by decide +kernel

/-- V43, first poll. -/
theorem test_poll_of_a_clean_table :
    traceOf (step (heard [0x01, 0xD0, 0x00, 0xD1] (trio false false false))) =
      [.tx [0x01, 0xE2, 0x00, 0x02] 100] := by decide +kernel

/-- V8. -/
theorem test_read_answers_the_value :
    traceOf (step (heard [0x01, 0xD1, 0x10, 0x00, 0x05] (storeValue 1 [0x34, 0x12] device))) =
      [.tx [0x01, 0xDB, 0x10, 0x00, 0x34, 0x12, 0x4F] 100] := by decide +kernel

/-- V19a. -/
theorem test_read_of_no_item :
    traceOf (step (heard [0x01, 0xD1, 0x34, 0x12, 0x81] device)) = [.tx [0x01, 0xE4, 0x00, 0x7C] 100] := by decide +kernel

/-- V4. -/
theorem test_wrb_stores :
    traceOf (step (heard [0x01, 0xDA, 0x00, 0x00, 0x7F, 0x49] device)) =
      [.onWrite 0, .tx [0x01, 0xE0, 0x00, 0x28] 100] := by decide +kernel

/-- V5. -/
theorem test_wrb_to_a_word_is_rejected :
    traceOf (step (heard [0x01, 0xDA, 0x10, 0x00, 0x7F, 0xEB] device)) = [.tx [0x01, 0xE5, 0x00, 0x69] 100] := by
  decide +kernel

/-- V7. -/
theorem test_wrw_stores :
    valueIn 1 (step (heard [0x01, 0xDB, 0x10, 0x00, 0x34, 0x12, 0x4F] device)) = [0x34, 0x12] := by decide +kernel

/-- V12. -/
theorem test_wrd_to_rgb_stores :
    valueIn 3 (step (heard [0x01, 0xDC, 0x03, 0x00, 0x01, 0x02, 0x03, 0x04, 0x08] device)) =
      [0x01, 0x02, 0x03, 0x04] := by decide +kernel

/-- V14. -/
theorem test_wrd_to_array_is_rejected :
    traceOf (step (heard [0x01, 0xDC, 0x04, 0x00, 0x01, 0x02, 0x03, 0x04, 0xD7] device)) =
      [.tx [0x01, 0xE5, 0x00, 0x69] 100] := by decide +kernel

/-- V13. -/
theorem test_wrc_to_float_stores :
    valueIn 5 (step (heard [0x01, 0xDD, 0x05, 0x00, 0x00, 0x00, 0x80, 0x3F, 0xC9] device)) =
      [0x00, 0x00, 0x80, 0x3F] := by decide +kernel

/-- V16: as long as the capacity. -/
theorem test_wra_of_the_capacity_stores :
    valueIn 4 (step (heard [0x01, 0xDE, 0x04, 0x00, 0x04, 0x00, 0x01, 0x02, 0x03, 0x04, 0x18] device)) =
      [0x01, 0x02, 0x03, 0x04] := by decide +kernel

/-- V17: one byte longer. -/
theorem test_wra_above_the_capacity_is_rejected :
    traceOf (step (heard [0x01, 0xDE, 0x04, 0x00, 0x05, 0x00, 0x01, 0x02, 0x03, 0x04, 0x05, 0x8C] device)) =
      [.tx [0x01, 0xE5, 0x00, 0x69] 100] := by decide +kernel

/-- V3. -/
theorem test_pushb_frame : traceOf (exec (.pushb 0x0000 0x07) device) = [.tx [0x01, 0xDA, 0x00, 0x00, 0x07, 0x26] 0] := by
  decide +kernel

/-- Rule R93 after V3b. -/
theorem test_pushw_frame : traceOf (exec (.pushw 0x0010 0x34 0x12) device) =
    [.tx [0x01, 0xDB, 0x10, 0x00, 0x34, 0x12, 0x4F] 0] := by decide +kernel

/-- V13b. -/
theorem test_pushd_frame : traceOf (exec (.pushd 0x0005 0x00 0x00 0x80 0x3F) device) =
    [.tx [0x01, 0xDC, 0x05, 0x00, 0x00, 0x00, 0x80, 0x3F, 0x16] 0] := by decide +kernel

/-- V12b. -/
theorem test_pushc_frame : traceOf (exec (.pushc 0x0003 0x01 0x02 0x03 0x04) device) =
    [.tx [0x01, 0xDD, 0x03, 0x00, 0x01, 0x02, 0x03, 0x04, 0xD7] 0] := by decide +kernel

/-- V61. -/
theorem test_pusha_frame : traceOf (exec (.pusha 0x0004 [0xAA, 0xBB]) device) =
    [.tx [0x01, 0xDE, 0x04, 0x00, 0x02, 0x00, 0xAA, 0xBB, 0x13] 0] := by decide +kernel

/-- Rule R181 with decision D17: a push cleans its item. -/
theorem test_push_cleans_its_item : schedulerIn (exec (.pushb 0x0001 0x00) (trio true true true)) =
    some (0, false, 0, [true, false, true]) := by decide +kernel

/-- V3a. -/
theorem test_status_frames :
    traceOf (exec .ack device) = [.tx [0x01, 0xE0, 0x00, 0x28] 0] ∧
      traceOf (exec .nodata device) = [.tx [0x01, 0xE2, 0x00, 0x02] 0] ∧
      traceOf (exec .noaddr device) = [.tx [0x01, 0xE4, 0x00, 0x7C] 0] ∧
      traceOf (exec .wrrej device) = [.tx [0x01, 0xE5, 0x00, 0x69] 0] := by decide +kernel

/-- V24a: the gated response to a wrong CRC, off and on. -/
theorem test_badcrc_gate :
    traceOf (step (heard [0x01, 0xD0, 0x00, 0x00] device)) = [] ∧
      traceOf (step (heard [0x01, 0xD0, 0x00, 0x00] (under { Config.default with enCrcResp := true } device))) =
        [.tx [0x01, 0xE1, 0xD1, 0x04] 100] := by decide +kernel

/-- V23a: the gated response to another poll flag, off and on. -/
theorem test_badflag_gate :
    traceOf (step (heard [0x01, 0xD0, 0x02, 0xDF] device)) = [] ∧
      traceOf (step (heard [0x01, 0xD0, 0x02, 0xDF] (under { Config.default with enFlagResp := true } device))) =
        [.tx [0x01, 0xE3, 0x00, 0x17] 100] := by decide +kernel

/-- V52b at clock reading 3: the greeting waits until 5, inside the direction signal. -/
theorem test_hello_waits_inside_the_direction_signal :
    traceOf (step (((under allOn device).setClock 3).setInputs [.sendGreeting])) =
      [.dirAssert, .tx [0x01, 0xE6, 0x00, 0x56] 5, .flushed, .dirDeassert] := by decide +kernel

/-! ### The receive side and the local operations -/

/-- V31: garbage that holds the device address. -/
theorem test_garbage_is_dropped :
    traceOf (step (heard [0x55, 0x01, 0xEE, 0x01, 0xD0, 0x00, 0xD1] (trio false false false))) =
      [.tx [0x01, 0xE2, 0x00, 0x02] 100] := by decide +kernel

/-- V33: the comparison of the stale check is strict. -/
theorem test_stale_check_is_strict :
    bufferIn (step (((device.setRxBuf [0x01, 0xD0]).setLastRxTime 100).setClock 110)) = some [0x01, 0xD0] ∧
      bufferIn (step (((device.setRxBuf [0x01, 0xD0]).setLastRxTime 100).setClock 111)) = some [] := by decide +kernel

/-- V40: a false frame start costs the frame after it. -/
theorem test_false_start_clears_the_buffer :
    bufferIn (step (heard [0x01, 0xD0, 0x99, 0x77, 0x01, 0xD0, 0x00, 0xD1] device)) = some [] ∧
      traceOf (step (heard [0x01, 0xD0, 0x99, 0x77, 0x01, 0xD0, 0x00, 0xD1] device)) = [] := by decide +kernel

/-- V61, last row. -/
theorem test_push_all_dirty_in_index_order :
    traceOf (step ((setDirty 4 true (storeValue 4 [0xAA, 0xBB] (setDirty 0 true (storeValue 0 [0x09]
      (under { Config.default with fullDuplex := true } device))))).setInputs [.pushAllDirty])) =
      [.tx [0x01, 0xDA, 0x00, 0x00, 0x09, 0x0C] 0, .tx [0x01, 0xDE, 0x04, 0x00, 0x02, 0x00, 0xAA, 0xBB, 0x13] 0] := by
  decide +kernel

/-- V60: the same value is answered false, a value over the capacity is refused. -/
theorem test_local_writes :
    answerIn (step (device.setInputs [.setValueIfChanged 0 (.bytes [0x00])])) = some (.changed false) ∧
      answerIn (step (device.setInputs [.setValueIfChanged 0 (.bytes [0x07])])) = some (.changed true) ∧
      answerIn (step (device.setInputs [.setValue 4 (.bytes [0x01, 0x02, 0x03, 0x04, 0x05])])) = some .refused := by
  decide +kernel

/-- Rule R27: a number is stored low byte first. -/
theorem test_number_is_little_endian :
    valueIn 1 (step (device.setInputs [.setValue 1 (.number 0x1234)])) = [0x34, 0x12] := by decide +kernel

/-- Rule R6: a receive buffer of 9 bytes is refused, and one that cannot take an Array for the host to write: of 11
bytes for 4 bytes of data, not of 12. -/
theorem test_invalid_configuration_is_refused :
    refusedWith (step (under { Config.default with rxCap := 9 } device)) = some .invalidConfiguration ∧
      refusedWith (step (under { Config.default with hostArrays := [4], rxCap := 11 } device)) =
        some .invalidConfiguration ∧
      refusedWith (step (under { Config.default with hostArrays := [4], rxCap := 12 } device)) = none ∧
      refusedWith (step ((hostWrites 11).setInputs [.register 9 .array 4])) =
        some (.registrationRefused .bufferTooSmall) := by decide +kernel

/-- A step of the example states is safe. -/
theorem test_steps_are_safe : safeStep State.reset = true ∧ safeStep device = true := by decide +kernel

/-! ### Witnesses: for every obligation with hypotheses, a state and operands that meet them all -/

theorem next_of_safe {s : State} (h : safeStep s = true) : ∃ t, step s = .next t := by
  unfold safeStep at h
  split at h
  · exact ⟨_, by assumption⟩
  · cases h
  · cases h

/-- An operation answers a next state. -/
def answersNext (r : Result) : Bool :=
  match r with
  | .next _ => true
  | .fault _ => false
  | .refused _ => false

theorem next_of_answers {r : Result} (h : answersNext r = true) : ∃ t, r = .next t := by
  unfold answersNext at h
  split at h
  · exact ⟨_, rfl⟩
  · cases h
  · cases h

theorem found_of_lookup {s : State} {addr : Word16} {i : Nat} {it : Item} (h : lookup addr s.items = some i)
    (hi : s.items[i]? = some it) : FoundAt s addr i it := by
  obtain ⟨it', h1, h2, h3⟩ := lookup_some h
  rw [h1] at hi
  cases hi
  exact ⟨h1, h2, h3⟩

theorem witness_Crc8DetectsEverySingleBitFlip : 2 < [0x01#8, 0xD0#8, 0x00#8].length ∧ 7 < 8 := by decide

theorem witness_EncodedCommandDecodesToItself :
    (Instr.wra 0xFFFF [0xFF]).fromHost = true ∧ (Instr.wra 0xFFFF [0xFF]).wellFormed = true := by decide

theorem witness_EncodedReplyDecodesToItself :
    (Instr.pusha 0xFFFF [0xFF]).fromHost = false ∧ (Instr.pusha 0xFFFF [0xFF]).wellFormed = true ∧
      (Instr.badcrc 0xFF).fromHost = false ∧ (Instr.badcrc 0xFF).wellFormed = true := by decide

theorem witness_DecodedBytesAreTheEncoding :
    decode 0x01 [0x01, 0xD0, 0x00, 0xD1, 0x99] = .ok (.poll 0x00, [0x99]) := by decide +kernel

theorem witness_LastByteIsTheCrcOfTheRest :
    decode 0x01 [0x01, 0xDE, 0x04, 0x00, 0x00, 0x00, 0x4E] = .ok (.wra 0x0004 [], []) := by decide +kernel

theorem witness_DecoderRecognisesExactlySevenCommands :
    2 ≤ [0x00#8, 0x28#8].length ∧ decode 0x01 [0x01, 0xE0, 0x00, 0x28] = .error (.unknownCommand 0xE0) ∧
      decode 0x01 [0x01, 0xDF, 0x00, 0x00] = .error (.unknownCommand 0xDF) ∧
      decode 0x01 [0x01, 0xD2, 0x00, 0x00] = .error (.unknownCommand 0xD2) := by decide +kernel

/-- A poll frame is waiting. -/
def polled : State := heard [0x01, 0xD0, 0x00, 0xD1] (trio true true true)

theorem witness_StepRunsTheDecodedInstruction : Ready polled .poll ∧
    decode polled.config.devAddr (staleCheck (drain (begun polled))).rxBuf = .ok (.poll 0x00, []) := by
  unfold Ready; decide +kernel

theorem witness_DrainMovesTheOldestBytesThatFit :
    polled.rxBuf.length ≤ polled.config.rxCap ∧
      (polled.setRxBuf (List.replicate 64 0x55)).rxBuf.length ≤ polled.config.rxCap ∧
      drainCount (polled.setRxBuf (List.replicate 64 0x55)) = 0 ∧
      drainCount (polled.setRxBuf (List.replicate 63 0x55)) = 1 := by decide +kernel

/-- Two bytes of a frame received at 100, seen at `clock`. -/
def partly (clock : Word32) : State := ((device.setRxBuf [0x01, 0xD0]).setLastRxTime 100).setClock clock

theorem witness_StaleBufferIsDiscardedStrictlyAfterTheTimeout :
    ((partly 111).rxBuf ≠ [] ∧ (partly 111).config.staleMs < (partly 111).clock - (partly 111).lastRxTime) ∧
      (partly 110).clock - (partly 110).lastRxTime ≤ (partly 110).config.staleMs ∧
      0 < drainCount ((partly 111).setRxFifo [0x00]) := by decide +kernel

theorem witness_IncompleteFrameWaits :
    Ready (partly 110) .poll ∧ (Instr.poll 0x00).fromHost = true ∧ (Instr.poll 0x00).wellFormed = true ∧
      2 < (encode (partly 110).config.devAddr (.poll 0x00)).length ∧
      (staleCheck (drain (begun (partly 110)))).rxBuf = (encode (partly 110).config.devAddr (.poll 0x00)).take 2 := by
  unfold Ready; decide +kernel

/-- All of a frame but its last byte, nothing at all, and three foreign bytes (V32). -/
theorem witness_IncompleteFrameWaits_bounds :
    Ready (heard [0x01, 0xD1, 0x34, 0x12] device) .poll ∧
      4 < (encode device.config.devAddr (.read 0x1234)).length ∧
      (staleCheck (drain (begun (heard [0x01, 0xD1, 0x34, 0x12] device)))).rxBuf =
        (encode device.config.devAddr (.read 0x1234)).take 4 ∧
      Ready device .poll ∧ (staleCheck (drain (begun device))).rxBuf.length < 4 ∧
      Ready (heard [0x55, 0x66, 0x77] device) .poll ∧
      (staleCheck (drain (begun (heard [0x55, 0x66, 0x77] device)))).rxBuf = [0x55, 0x66, 0x77] := by
  unfold Ready; decide +kernel

theorem witness_BadFrameStartDropsExactlyOneByte :
    2 ≤ [0x00#8, 0xD1#8].length ∧ (0x55#8 ≠ 0x01#8 ∨ 0xD0#8 ∉ [0xD0#8, 0xD1, 0xDA, 0xDB, 0xDC, 0xDD, 0xDE]) ∧
      (0x01#8 ≠ 0x01#8 ∨ 0xEE#8 ∉ [0xD0#8, 0xD1, 0xDA, 0xDB, 0xDC, 0xDD, 0xDE]) := by decide

theorem witness_GarbageThenFrameRunsTheFrame :
    let s := heard [0x55, 0xAA, 0x00, 0x01, 0xD0, 0x00, 0xD1, 0x01] device
    Ready s .poll ∧ s.rxBuf = [] ∧ (Instr.poll 0x00).fromHost = true ∧ (Instr.poll 0x00).wellFormed = true ∧
      (∀ b ∈ [0x55#8, 0xAA, 0x00], b ≠ s.config.devAddr) ∧
      s.rxFifo = [0x55, 0xAA, 0x00] ++ encode s.config.devAddr (.poll 0x00) ++ [0x01] ∧
      s.rxFifo.length ≤ s.config.rxCap := by
  unfold Ready; decide +kernel

theorem witness_WrongCrcRunsNothingAndClearsTheBuffer :
    ∀ config ∈ [Config.default, allOn],
      let s := heard [0x01, 0xD0, 0x00, 0x00, 0x77] (under config device)
      Ready s .poll ∧ s.rxBuf = [] ∧ (Instr.poll 0x00).fromHost = true ∧ (Instr.poll 0x00).wellFormed = true ∧
        linkLive (drain s) ∧ (0x00 : Byte) ≠ crc8 (encode s.config.devAddr (.poll 0x00)).dropLast ∧
        s.rxFifo = (encode s.config.devAddr (.poll 0x00)).dropLast ++ 0x00 :: [0x77] ∧
        s.rxFifo.length ≤ s.config.rxCap := by
  unfold Ready; decide +kernel

/-- A full 10-byte buffer that begins a frame of 11 bytes, received at 100, seen at `clock`. -/
def oversized (clock : Word32) : State :=
  (((under { Config.default with rxCap := 10 } device).setRxBuf
    [0x01, 0xDE, 0x04, 0x00, 0x04, 0x00, 0x01, 0x02, 0x03, 0x04]).setLastRxTime 100).setClock clock

/-- The two clauses of the buffer's fate: 10 ms after the last byte, and 11. -/
theorem witness_OversizedArrayFrameOnlyGoesStale :
    (Ready (oversized 110) .poll ∧ (oversized 110).clock - (oversized 110).lastRxTime = 10) ∧
      (Ready (oversized 111) .poll ∧ (oversized 111).clock - (oversized 111).lastRxTime = 11) ∧
      (oversized 111).rxBuf.length = (oversized 111).config.rxCap ∧
      (oversized 111).rxBuf = (oversized 111).config.devAddr :: 0xDE ::
        [0x04, 0x00, 0x04, 0x00, 0x01, 0x02, 0x03, 0x04] ∧
      4 ≤ [0x04#8, 0x00, 0x04, 0x00, 0x01, 0x02, 0x03, 0x04].length ∧
      (oversized 111).config.rxCap < 7 + (le16 (byteAt [0x04, 0x00, 0x04, 0x00, 0x01, 0x02, 0x03, 0x04] 2)
        (byteAt [0x04, 0x00, 0x04, 0x00, 0x01, 0x02, 0x03, 0x04] 3)).toNat :=
  ⟨⟨⟨by decide +kernel, rfl⟩, by decide +kernel⟩, ⟨⟨by decide +kernel, rfl⟩, by decide +kernel⟩, rfl, rfl, by decide,
    by decide +kernel⟩

theorem witness_PollStepSendsAtMostOneFrame : nextInput polled = .poll ∧ ∃ t, step polled = .next t :=
  ⟨rfl, next_of_safe (by decide +kernel)⟩

/-! #### Poll and read -/

/-- The sweep goes on after the push of item 1. -/
theorem witness_PollPushesTheFirstDirtyItemOfItsWalk :
    let s := trio false true false
    schedulerOk s ∧ linkLive s ∧ FirstDirty s 1 ∧ s.items[1]? = some { item 1 .byte 1 with dirty := true } ∧
      itemLenOk { item 1 .byte 1 with dirty := true } := by
  refine ⟨by decide +kernel, by decide +kernel, ⟨1, ⟨by decide, ?_⟩, by decide, by decide, ?_⟩, rfl, by decide⟩
  · intro m h1 h2
    obtain rfl : m = 1 := by omega
    decide
  · intro m h
    obtain rfl : m = 0 := by omega
    decide

/-- The sweep ends with the push of item 2, from an open sweep. -/
theorem witness_PollPushesTheFirstDirtyItemOfItsWalk_end :
    let s := ((trio true false true).setScanCursor 2).setSweepInProgress true
    schedulerOk s ∧ linkLive s ∧ FirstDirty s 2 ∧ s.items[2]? = some { item 2 .byte 1 with dirty := true } ∧
      itemLenOk { item 2 .byte 1 with dirty := true } := by
  refine ⟨by decide +kernel, by decide +kernel, ⟨0, ⟨by decide, ?_⟩, by decide, by decide, ?_⟩, rfl, by decide⟩
  · intro m h1 h2
    omega
  · intro m h
    omega

/-- V47b, second poll: item 0 is dirty but outside the walk. -/
theorem witness_PollWithNothingDirtyAnswersNoData :
    let s := ((trio true false false).setScanCursor 2).setSweepInProgress true
    schedulerOk s ∧ linkLive s ∧ s.items ≠ [] ∧ NoneDirty s := by
  refine ⟨by decide +kernel, by decide +kernel, by decide, fun k h => ?_⟩
  rcases Nat.eq_zero_or_pos k with rfl | hk
  · decide
  · exact absurd rfl (h.2 1 (by decide) hk)

theorem witness_ForcedPollPushesTheItemAtTheCursor :
    let s := (trio true false false).setScanCursor 2
    schedulerOk s ∧ linkLive s ∧ s.items[s.scanCursor]? = some (item 2 .byte 1) ∧ itemLenOk (item 2 .byte 1) := by
  decide +kernel

theorem witness_PollOfAnEmptyTableAnswersNoData :
    linkLive State.reset ∧ State.reset.items = [] ∧ ((0x01 : Byte) = 0x00 ∨ (0x01 : Byte) = 0x01) := by decide +kernel

theorem witness_PollWithAnotherFlagTakesNoAction :
    (0x02 : Byte) ≠ 0x00 ∧ (0x02 : Byte) ≠ 0x01 ∧ (0xFF : Byte) ≠ 0x00 ∧ (0xFF : Byte) ≠ 0x01 ∧
      linkLive device ∧ device.config.enFlagResp = false ∧
      linkLive (under allOn device) ∧ (under allOn device).config.enFlagResp = true := by decide +kernel

theorem found_word : FoundAt device 0x0010 1 (item 0x0010 .word 2) := found_of_lookup (by decide +kernel) rfl

theorem found_array : FoundAt device 0x0004 4 (item 0x0004 .array 4) := found_of_lookup (by decide +kernel) rfl

theorem witness_ReadAnswersTheWholeValue :
    linkLive device ∧ FoundAt device 0x0010 1 (item 0x0010 .word 2) ∧ itemLenOk (item 0x0010 .word 2) :=
  ⟨by decide +kernel, found_word, by decide⟩

theorem write_of_wrb : WriteOf (.wrb 0xFFFF 0x7F) 0xFFFF [0x7F] := Or.inl ⟨_, rfl, rfl⟩

theorem witness_MissingAddressAnswersNoAddr :
    linkLive device ∧ Missing device 0xFFFF ∧ WriteOf (.wrb 0xFFFF 0x7F) 0xFFFF [0x7F] :=
  ⟨by decide +kernel, by unfold Missing; decide +kernel, write_of_wrb⟩

/-! #### Writes -/

theorem witness_WrbStoresOneByte :
    Memory.wf device.mem ∧ linkLive device ∧
      (FoundAt device 0x0000 0 (item 0x0000 .byte 1) ∧ (item 0x0000 .byte 1).kind = .byte) ∧
      (FoundAt device 0x0010 1 (item 0x0010 .word 2) ∧ (item 0x0010 .word 2).kind ≠ .byte) :=
  ⟨by decide +kernel, by decide +kernel, ⟨found_of_lookup (by decide +kernel) rfl, rfl⟩, found_word, by decide⟩

theorem witness_WrwStoresTwoBytes :
    Memory.wf device.mem ∧ linkLive device ∧
      (FoundAt device 0x0010 1 (item 0x0010 .word 2) ∧ (item 0x0010 .word 2).kind = .word) ∧
      (FoundAt device 0x0004 4 (item 0x0004 .array 4) ∧ (item 0x0004 .array 4).kind ≠ .word) :=
  ⟨by decide +kernel, by decide +kernel, ⟨found_word, rfl⟩, found_array, by decide⟩

theorem witness_WrdAndWrcStoreFourBytesInAnyFourByteItem :
    Memory.wf device.mem ∧ linkLive device ∧ FoundAt device 0x0003 3 (item 0x0003 .rgb 4) ∧
      (item 0x0003 .rgb 4).kind ∈ [Kind.dword, .float, .hsb, .rgb, .rgbw] :=
  ⟨by decide +kernel, by decide +kernel, found_of_lookup (by decide +kernel) rfl, by decide⟩

/-- Empty data, as long as the capacity, and one byte longer. -/
theorem witness_WraStoresUpToTheCapacity :
    Memory.wf device.mem ∧ linkLive device ∧ FoundAt device 0x0004 4 (item 0x0004 .array 4) ∧
      (item 0x0004 .array 4).kind = .array ∧ ([] : List Byte).length ≤ (item 0x0004 .array 4).cap ∧
      [0x01#8, 0x02, 0x03, 0x04].length ≤ (item 0x0004 .array 4).cap ∧
      (item 0x0004 .array 4).cap < [0x01#8, 0x02, 0x03, 0x04, 0x05].length :=
  ⟨by decide +kernel, by decide +kernel, found_array, rfl, by decide, by decide, by decide⟩

theorem witness_RejectedWriteChangesNoItem :
    linkLive device ∧ FoundAt device 0x0004 4 (item 0x0004 .array 4) ∧
      (WriteOf (.wrb 0x0004 0x01) 0x0004 [0x01] ∧ DoesNotFit (.wrb 0x0004 0x01) (item 0x0004 .array 4)) ∧
      (WriteOf (.wrd 0x0004 0x01 0x02 0x03 0x04) 0x0004 [0x01, 0x02, 0x03, 0x04] ∧
        DoesNotFit (.wrd 0x0004 0x01 0x02 0x03 0x04) (item 0x0004 .array 4)) ∧
      (WriteOf (.wra 0x0004 [0x01, 0x02, 0x03, 0x04, 0x05]) 0x0004 [0x01, 0x02, 0x03, 0x04, 0x05] ∧
        DoesNotFit (.wra 0x0004 [0x01, 0x02, 0x03, 0x04, 0x05]) (item 0x0004 .array 4)) :=
  ⟨by decide +kernel, found_array, ⟨Or.inl ⟨_, rfl, rfl⟩, by unfold DoesNotFit; decide⟩,
    ⟨Or.inr (Or.inr (Or.inl ⟨_, _, _, _, rfl, rfl⟩)), by unfold DoesNotFit; decide⟩,
    Or.inr (Or.inr (Or.inr (Or.inr rfl))), by unfold DoesNotFit; decide⟩

theorem witness_WireWritesKeepEveryDirtyFlag :
    WriteOf (.wrb 0x0001 0x7F) 0x0001 [0x7F] ∧ ∃ t, exec (.wrb 0x0001 0x7F) (trio true true false) = .next t :=
  ⟨Or.inl ⟨_, rfl, rfl⟩, next_of_answers (by decide +kernel)⟩

/-- Both sends return, behind a delay and a flush of 3 ms each. -/
theorem witness_WordWrittenThenReadComesBack :
    let s := (under allOn device).setLink [.completes 3 3, .completes 3 3]
    Memory.wf s.mem ∧ linkLive s ∧ FoundAt s 0x0010 1 (item 0x0010 .word 2) ∧ (item 0x0010 .word 2).kind = .word ∧
      (match exec (.wrw 0x0010 0x34 0x12) s with
      | .next t => decide (linkLive t)
      | .fault _ => false
      | .refused _ => false) = true :=
  ⟨by decide +kernel, by decide +kernel, found_of_lookup (by decide +kernel) rfl, rfl, by decide +kernel⟩

/-! #### The encoder and the link -/

theorem witness_UngatedStatusFramesAreSent : linkLive (under allOn device) := by decide +kernel

theorem witness_GatedStatusFramesAreSentOnlyWhenEnabled :
    linkLive device ∧ device.config.enCrcResp = false ∧ device.config.enFlagResp = false ∧
      device.config.fullDuplex = false ∧ linkLive (under allOn device) ∧
      (under allOn device).config.enCrcResp = true ∧ (under allOn device).config.enFlagResp = true ∧
      (under allOn device).config.fullDuplex = true := by decide +kernel

theorem witness_PushFramesAreSentAndCleanTheirItem :
    linkLive device ∧ (∃ d0, Instr.pushb 0x0010 0x07 = .pushb 0x0010 d0 ∧
        [0xDA#8, lo8 0x0010, hi8 0x0010, 0x07] = [0xDA, lo8 0x0010, hi8 0x0010, d0]) ∧
      FoundAt device 0x0010 1 (item 0x0010 .word 2) ∧ Missing device 0xFFFF :=
  ⟨by decide +kernel, ⟨_, rfl, rfl⟩, found_word, by unfold Missing; decide +kernel⟩

theorem witness_PushFrameHasTheItemsLayout :
    device.items[1]? = some (item 0x0010 .word 2) ∧ itemLenOk (item 0x0010 .word 2) ∧
      device.items[4]? = some (item 0x0004 .array 4) ∧ itemLenOk (item 0x0004 .array 4) := by decide +kernel

theorem witness_PushOfAnItemIsItsPushInstruction :
    FoundAt device (item 0x0010 .word 2).addr 1 (item 0x0010 .word 2) := found_word

/-- A byte was received at 1000, the turnaround delay is 5 ms, the clock reads `clock`. -/
def waiting (clock : Word32) : State :=
  ((under { Config.default with turnMs := 5 } device).setLastRxTime 1000).setClock clock

theorem witness_SendWaitsForTheTurnaroundDelay :
    (waiting 1004).link = [] ∧ (waiting 1004).config.flowCtrl = false ∧ 0 < (waiting 1004).config.turnMs ∧
      (waiting 1004).clock - (waiting 1004).lastRxTime < (waiting 1004).config.turnMs ∧
      (waiting 1005).config.turnMs ≤ (waiting 1005).clock - (waiting 1005).lastRxTime ∧
      device.link = [] ∧ device.config.flowCtrl = false ∧ device.config.turnMs = 0 := by decide +kernel

theorem witness_SendDrivesTheDirectionLineOnlyWithFlowControl :
    linkLive device ∧ device.config.flowCtrl = false ∧ linkLive (under allOn device) ∧
      (under allOn device).config.flowCtrl = true := by decide +kernel

theorem witness_NoStepWritesAFrameTooEarly : ∃ t, step (under allOn polled) = .next t :=
  next_of_safe (by decide +kernel)

theorem witness_SendStopsWhenFlushOrClockNeverReturns :
    ((under allOn device).setLink [.flushHangs 0]).config.flowCtrl = true ∧
      ((under allOn device).setLink [.flushHangs 0]).link = .flushHangs 0 :: [] ∧
      0 < ((waiting 1004).setLink [.clockStops]).config.turnMs ∧
      ((waiting 1004).setLink [.clockStops]).clock - ((waiting 1004).setLink [.clockStops]).lastRxTime <
        ((waiting 1004).setLink [.clockStops]).config.turnMs ∧
      ((waiting 1004).setLink [.clockStops]).link = .clockStops :: [] := by decide +kernel

theorem witness_InstructionsStopOnlyInSend :
    exec .ack ((under allOn device).setLink [.flushHangs 0]) = .fault .flushNeverReturns := by
  have h : (match exec .ack ((under allOn device).setLink [.flushHangs 0]) with
      | .fault e => some e
      | .next _ => none
      | .refused _ => none) = some Fault.flushNeverReturns := by decide +kernel
  revert h
  cases exec .ack ((under allOn device).setLink [.flushHangs 0]) <;> simp

/-! #### Local operations -/

theorem fits_word : Fits (item 0x0010 .word 2) [0x34, 0x12] := by unfold Fits; decide

theorem bytes_at (kind : Kind) (v : List Byte) : ValueBytes kind (.bytes v) v := Or.inl rfl

/-- The bytes of a number are those of 0x1234, low byte first. -/
theorem number_at_word : ValueBytes .word (.number 0x1234) [0x34, 0x12] :=
  Or.inr ⟨_, rfl, Or.inr (Or.inl ⟨rfl, by decide⟩)⟩

/-- A value given as bytes has no other bytes. -/
theorem bytes_only {kind : Kind} {v w : List Byte} (h : ValueBytes kind (.bytes v) w) : w = v := by
  rcases h with h | ⟨_, h, _⟩
  · injection h with h
    exact h.symm
  · cases h

/-- A number has no bytes at a Float. -/
theorem number_at_float (n : Word32) (v : List Byte) : ¬ ValueBytes .float (.number n) v := by
  rintro (h | ⟨_, _, ⟨h, _⟩ | ⟨h, _⟩ | ⟨h, _⟩⟩) <;> cases h

theorem witness_SetValueStoresAndMarksDirtyOrIsRefused :
    Ready (device.setInputs [.setValue 1 (.bytes [0x34, 0x12])]) (.setValue 1 (.bytes [0x34, 0x12])) ∧
      Ready (device.setInputs [.setValue 1 (.number 0x1234)]) (.setValue 1 (.number 0x1234)) ∧
      Memory.wf device.mem ∧ device.items[1]? = some (item 0x0010 .word 2) ∧
      ValueBytes .word (.bytes [0x34, 0x12]) [0x34, 0x12] ∧ ValueBytes .word (.number 0x1234) [0x34, 0x12] ∧
      Fits (item 0x0010 .word 2) [0x34, 0x12] :=
  ⟨by unfold Ready; decide +kernel, by unfold Ready; decide +kernel, by decide +kernel, rfl, bytes_at _ _, number_at_word,
    fits_word⟩

/-- A value one byte too long, a number at a Float, and a handle one past the table. -/
theorem witness_SetValueStoresAndMarksDirtyOrIsRefused_refused :
    Ready (device.setInputs [.setValue 4 (.bytes [1, 2, 3, 4, 5])]) (.setValue 4 (.bytes [1, 2, 3, 4, 5])) ∧
      (∀ it v, device.items[4]? = some it → ValueBytes it.kind (.bytes [1, 2, 3, 4, 5]) v → ¬ Fits it v) ∧
      Ready (device.setInputs [.setValue 5 (.number 1)]) (.setValue 5 (.number 1)) ∧
      (∀ it v, device.items[5]? = some it → ValueBytes it.kind (.number 1) v → ¬ Fits it v) ∧
      Ready (device.setInputs [.setValue 6 (.bytes [1])]) (.setValue 6 (.bytes [1])) ∧
      (∀ it v, device.items[6]? = some it → ValueBytes it.kind (.bytes [1]) v → ¬ Fits it v) := by
  refine ⟨by unfold Ready; decide +kernel, fun it v h hv => ?_, by unfold Ready; decide +kernel, fun it v h hv => ?_,
    by unfold Ready; decide +kernel, fun it v h => nomatch h⟩
  · cases h
    rw [bytes_only hv]
    unfold Fits
    decide
  · cases h
    exact absurd hv (number_at_float _ _)

theorem witness_SetValueIfChangedComparesThenStores :
    Ready (device.setInputs [.setValueIfChanged 1 (.number 0x1234)]) (.setValueIfChanged 1 (.number 0x1234)) ∧
      Memory.wf device.mem ∧ device.items[1]? = some (item 0x0010 .word 2) ∧
      ValueBytes .word (.number 0x1234) [0x34, 0x12] ∧ Fits (item 0x0010 .word 2) [0x34, 0x12] ∧
      [0x34, 0x12] ≠ valueOf device 1 ∧
      Ready (device.setInputs [.setValueIfChanged 1 (.bytes [0, 0])]) (.setValueIfChanged 1 (.bytes [0, 0])) ∧
      ValueBytes .word (.bytes [0, 0]) [0, 0] ∧ [0, 0] = valueOf device 1 :=
  ⟨by unfold Ready; decide +kernel, by decide +kernel, rfl, number_at_word, fits_word, by decide +kernel,
    by unfold Ready; decide +kernel, bytes_at _ _, by decide +kernel⟩

/-- A number at a Float, and a handle one past the table. -/
theorem witness_SetValueIfChangedComparesThenStores_refused :
    Ready (device.setInputs [.setValueIfChanged 5 (.number 1)]) (.setValueIfChanged 5 (.number 1)) ∧
      (∀ it v, device.items[5]? = some it → ¬ ValueBytes it.kind (.number 1) v) ∧
      Ready (device.setInputs [.setValueIfChanged 6 (.bytes [1])]) (.setValueIfChanged 6 (.bytes [1])) ∧
      (∀ it v, device.items[6]? = some it → ¬ ValueBytes it.kind (.bytes [1]) v) := by
  refine ⟨by unfold Ready; decide +kernel, fun it v h => ?_, by unfold Ready; decide +kernel, fun it v h => nomatch h⟩
  cases h
  exact number_at_float _ _

/-- The last handle of the table, and one past it. -/
theorem witness_GetValueAnswersTheBytesAndChangesNothing :
    Ready (device.setInputs [.getValue 5]) (.getValue 5) ∧ device.items[5]? = some (item 0x0005 .float 4) ∧
      Ready (device.setInputs [.getValue 6]) (.getValue 6) ∧ device.items.length ≤ 6 :=
  ⟨by unfold Ready; decide +kernel, rfl, by unfold Ready; decide +kernel, by decide⟩

/-- Full duplex, `PushAllDirty` next. -/
def pushing (s : State) : State := (under { Config.default with fullDuplex := true } s).setInputs [.pushAllDirty]

/-- A line on which every send ends, in its own time. -/
theorem line_returns (s : State) (choices : List (Word32 × Word32)) :
    LineReturns (s.setLink (choices.map fun c => .completes c.1 c.2)) := by
  intro c hc
  obtain ⟨d, _, rfl⟩ := List.mem_map.1 hc
  exact ⟨_, _, rfl⟩

theorem witness_PushAllDirtySendsEveryDirtyItemInOrder :
    ∀ s ∈ [pushing (trio true false true), pushing (trio false false false)],
      Ready s .pushAllDirty ∧ s.config.fullDuplex = true ∧ LineReturns s ∧ ∀ it ∈ s.items, itemLenOk it := by
  intro s hs
  simp only [List.mem_cons, List.not_mem_nil, or_false] at hs
  rcases hs with rfl | rfl
  · exact ⟨by unfold Ready; decide +kernel, rfl, fun c h => (nomatch h), by decide +kernel⟩
  · exact ⟨by unfold Ready; decide +kernel, rfl, fun c h => (nomatch h), by decide +kernel⟩

theorem witness_UnsolicitedOperationsNeedFullDuplex :
    Ready ((under allOn device).setInputs [.sendGreeting]) .sendGreeting ∧
      (under allOn device).config.fullDuplex = true ∧ linkLive ((under allOn device).setInputs [.sendGreeting]) ∧
      Ready (device.setInputs [.pushAllDirty]) .pushAllDirty ∧ device.config.fullDuplex = false := by
  unfold Ready; decide +kernel

/-- The least and the greatest address and the greatest capacity, in a table with one place left. -/
theorem witness_RegistrationAppendsOrIsRefused :
    ∀ a ∈ [(0 : Int), 65535],
      let s := (under { Config.default with tableCap := 4 } (trio true true true)).setItems [item 7 .byte 1, item 8 .byte 1, item 9 .byte 1]
      let t := s.setInputs [.register a .array 65535]
      Ready t (.register a .array 65535) ∧ Memory.wf t.mem ∧ t.started = false ∧
        t.items.length < t.config.tableCap ∧ 0 ≤ a ∧ a ≤ 65535 ∧ (∀ it ∈ t.items, (it.addr.toNat : Int) ≠ a) := by
  unfold Ready; decide +kernel

/-- An Array for the host to write, of 4 bytes: a receive buffer of 12 bytes takes it, one of 11 does not. -/
theorem witness_RegistrationAppendsOrIsRefused_buffer :
    Ready ((hostWrites 12).setInputs [.register 9 .array 4]) (.register 9 .array 4) ∧
      Ready ((hostWrites 11).setInputs [.register 9 .array 4]) (.register 9 .array 4) ∧
      (hostWrites 12).started = false ∧ (∃ b ∈ (hostWrites 12).config.hostArrays, (b.toNat : Int) = 9) ∧
      7 + 4 < (hostWrites 12).config.rxCap ∧ (hostWrites 11).config.rxCap ≤ 7 + 4 :=
  ⟨by unfold Ready; decide +kernel, by unfold Ready; decide +kernel, rfl, ⟨9, by decide, by decide⟩, by decide, by decide⟩

/-- One past each bound, a full table, a taken address, and a registration after the first step. -/
theorem witness_RegistrationAppendsOrIsRefused_refused :
    Ready (device.setInputs [.register (-1) .byte 0]) (.register (-1) .byte 0) ∧
      Ready (device.setInputs [.register 65536 .byte 0]) (.register 65536 .byte 0) ∧
      Ready (device.setInputs [.register 9 .array 65536]) (.register 9 .array 65536) ∧
      (Ready (device.setInputs [.register 5 .byte 0]) (.register 5 .byte 0) ∧
        ∃ it ∈ device.items, (it.addr.toNat : Int) = 5) ∧
      (Ready ((under { Config.default with tableCap := 6 } device).setInputs [.register 9 .byte 0]) (.register 9 .byte 0) ∧
        (under { Config.default with tableCap := 6 } device).config.tableCap ≤ device.items.length) ∧
      Ready (device.setStarted.setInputs [.register 9 .byte 0]) (.register 9 .byte 0) ∧
      device.setStarted.started = true :=
  ⟨by unfold Ready; decide +kernel, by unfold Ready; decide +kernel, by unfold Ready; decide +kernel,
    ⟨by unfold Ready; decide +kernel, by decide +kernel⟩, ⟨by unfold Ready; decide +kernel, by decide +kernel⟩,
    by unfold Ready; decide +kernel, rfl⟩

/-! #### The whole machine -/

theorem witness_ResetMeetsTheInvariant : configOk Config.default device.items := by decide +kernel

theorem witness_EveryStepKeepsTheInvariant : polled.Inv ∧ ∃ t, step polled = .next t :=
  ⟨⟨by decide +kernel, by decide +kernel, by decide +kernel, by decide +kernel, rfl, by decide +kernel,
    fun c h => nomatch h⟩, next_of_safe (by decide +kernel)⟩

theorem witness_ConfigurationIsCheckedAndNeverChanged :
    (∃ t, step polled = .next t) ∧
      (under { Config.default with tableCap := 5 } device).config.tableCap < device.items.length ∧
      (under { Config.default with rxCap := 9 } device).config.rxCap < 10 ∧
      (item 4 .array 4).addr ∈ (under { Config.default with hostArrays := [4], rxCap := 11 } device).config.hostArrays ∧
      (under { Config.default with hostArrays := [4], rxCap := 11 } device).config.rxCap ≤ 7 + (item 4 .array 4).cap :=
  ⟨next_of_safe (by decide +kernel), by decide +kernel⟩

theorem witness_OnlyTheForcedPollSetsDirtyFromTheWire :
    Instr.poll 0x00 ≠ Instr.fpoll ∧
      (match exec (.poll 0x00) (trio true true true) with
      | .next t => dirtyAt t.items 1
      | .fault _ => false
      | .refused _ => false) = true := by decide +kernel

theorem witness_OnlyWritesChangeValues :
    (∃ t, exec (.read 0x0001) (trio true true true) = .next t) ∧ ∀ addr data, ¬ WriteOf (.read 0x0001) addr data :=
  ⟨next_of_answers (by decide +kernel), fun addr data h => by simp [WriteOf] at h⟩

theorem witness_HalfDuplexSendsOnlyInPollSteps :
    device.config.fullDuplex = false ∧ nextInput (device.setInputs [.setValue 0 (.bytes [7])]) ≠ .poll ∧
      ∃ t, step (device.setInputs [.setValue 0 (.bytes [7])]) = .next t :=
  ⟨rfl, by decide, next_of_safe (by decide +kernel)⟩

theorem witness_AllDirtyItemsArePushedInTurn :
    let s := ((trio true false false).setScanCursor 2).setLink ([(3, 5)].map fun c => .completes c.1 c.2)
    schedulerOk s ∧ s.sweepInProgress = false ∧ s.items ≠ [] ∧ LineReturns s ∧ ∀ it ∈ s.items, itemLenOk it :=
  ⟨by decide +kernel, rfl, by decide +kernel, line_returns _ [(3, 5)], by decide +kernel⟩

theorem witness_CleanTableAlwaysAnswersNoData :
    let s := ((trio false false false).setScanCursor 2).setLink ([(3, 5)].map fun c => .completes c.1 c.2)
    schedulerOk s ∧ s.sweepInProgress = false ∧ s.items ≠ [] ∧ LineReturns s ∧ ∀ it ∈ s.items, it.dirty = false :=
  ⟨by decide +kernel, rfl, by decide +kernel, line_returns _ [(3, 5)], by decide +kernel⟩

/-- Item 0 is dirty and outside the walk of the open sweep (V47b). -/
theorem witness_DirtyItemIsPushedWithinNPolls :
    let s := (((trio true false true).setScanCursor 2).setSweepInProgress true).setLink
      ([(3, 5)].map fun c => .completes c.1 c.2)
    schedulerOk s ∧ LineReturns s ∧ s.items[0]? = some { item 0 .byte 1 with dirty := true } ∧
      itemLenOk { item 0 .byte 1 with dirty := true } :=
  ⟨by decide +kernel, line_returns _ [(3, 5)], rfl, by decide⟩

/-- The worst case of V42: two items, a sweep from 0 that stands at 1, item 0 dirty. -/
def worst : State :=
  (((trio true false false).setItems [{ item 0 .byte 1 with dirty := true }, item 1 .byte 1]).setScanCursor
    1).setSweepInProgress true

/-- The states before and after the polls of V42, with payloads 0, item 1 made dirty before each: the scheduler registers
and flags are the table's, and item 1 is pushed twice, then item 0. -/
def worstRun (k : Nat) : State :=
  let one : TraceEvent := .tx [0x01, 0xDA, 0x01, 0x00, 0x00, 0x58] 0
  match k with
  | 0 => worst
  | 1 => (worst.emit one).setSweepInProgress false
  | 2 => (((worst.emit one).emit one).setScanCursor 0).setSweepStart 1
  | _ =>
    (((((worst.emit one).emit one).emit (.tx [0x01, 0xDA, 0x00, 0x00, 0x00, 0x33] 0)).setItems
      [item 0 .byte 1, { item 1 .byte 1 with dirty := true }]).setScanCursor 0).setSweepStart 1 |>.setSweepInProgress false

/-- The operation answers exactly this next state. -/
def answers (r : Result) (s : State) : Bool :=
  match r with
  | .next t => decide (t = s)
  | .fault _ => false
  | .refused _ => false

theorem next_of_answers_eq {r : Result} {s : State} (h : answers r s = true) : r = .next s := by
  unfold answers at h
  split at h
  · rw [of_decide_eq_true h]
  · cases h
  · cases h

theorem witness_NoItemStarvesUnderRedirtying :
    schedulerOk (worstRun 0) ∧ (∀ _k : Nat, [false, true].length = (worstRun 0).items.length) ∧
      (∀ k < 2 * (worstRun 0).items.length - 1,
        exec (.poll 0x00) (withMarks [false, true] (worstRun k)) = .next (worstRun (k + 1))) ∧
      (worstRun 0).items[0]? = some { item 0 .byte 1 with dirty := true } ∧
      itemLenOk { item 0 .byte 1 with dirty := true } := by
  refine ⟨by decide +kernel, fun _ => rfl, fun k hk => ?_, rfl, by decide⟩
  have hk : k < 3 := hk
  obtain rfl | rfl | rfl : k = 0 ∨ k = 1 ∨ k = 2 := by omega
  · exact next_of_answers_eq (by decide +kernel)
  · exact next_of_answers_eq (by decide +kernel)
  · exact next_of_answers_eq (by decide +kernel)

end Sys2Proof.Tests
end

section
/-! The CRC byte of a frame (30_encoding.md rule R81): a frame ends in its CRC because the encoder builds it by `withCrc`,
and because the decoder accepts a prefix of its input only when that prefix is `withCrc` of its own front. -/

namespace Sys2Proof.Proofs.FrameCrc

open Sys2Proof.Machine

/-! ### Frames built by `withCrc` -/

@[simp] theorem dropLast_withCrc (b : List Byte) : (withCrc b).dropLast = b := by
  simp [withCrc]

@[simp] theorem getLast?_withCrc (b : List Byte) : (withCrc b).getLast? = some (crc8 b) := by
  simp [withCrc]

/-! ### What the decoder accepts -/

/-- Every frame has a CRC byte to read: rule R86 gives no frame the length 0. -/
theorem frameLen_pos (cmd : HostCmd) (len : Word16) : 0 < frameLen cmd len := by
  cases cmd <;> simp only [frameLen] <;> omega

/-- The decoder goes on only with a whole frame in the buffer (rules R126, R127). -/
theorem neededLen_eq_some {cmd : HostCmd} {bs : List Byte} {len : Nat} (h : neededLen cmd bs = some len) :
    len = frameLen cmd (frameDataLen bs) ∧ len ≤ bs.length := by
  unfold neededLen at h
  split at h
  · cases h
  · split at h
    · cases h
    next hlen =>
      cases h
      exact ⟨rfl, Nat.le_of_not_lt hlen⟩

/-- The check of rule R129 passes only when the computed CRC is the byte that stands at the frame's end. -/
theorem checkedFrame_eq_ok {instr : List Byte → Instr} {len : Nat} {bs rest : List Byte} {i : Instr}
    (h : checkedFrame instr len bs = .ok (i, rest)) :
    crc8 (bs.take (len - 1)) = byteAt bs (len - 1) ∧ i = instr (bs.take len) ∧ rest = bs.drop len := by
  unfold checkedFrame at h
  split at h
  next hcrc =>
    cases h
    exact ⟨hcrc, rfl, rfl⟩
  · cases h

/-- The checks of rule R123 all passed when the decoder reads an instruction. -/
theorem decode_eq_ok {dev : Byte} {bs rest : List Byte} {i : Instr} (h : decode dev bs = .ok (i, rest)) :
    4 ≤ bs.length ∧ byteAt bs 0 = dev ∧
      ∃ cmd len, hostCmd (byteAt bs 1) = some cmd ∧ neededLen cmd bs = some len ∧
        checkedFrame (hostInstr cmd) len bs = .ok (i, rest) := by
  unfold decode at h
  split at h
  · cases h
  next hshort =>
    split at h
    · cases h
    next hdev =>
      split at h
      · cases h
      next cmd hcmd =>
        split at h
        · cases h
        next len hlen =>
          exact ⟨Nat.le_of_not_lt hshort, not_not.mp hdev, cmd, len, hcmd, hlen, h⟩

/-- A prefix whose last byte is the CRC of the bytes before it is `withCrc` of those bytes. -/
theorem take_eq_withCrc {bs : List Byte} {len : Nat} (hpos : 0 < len) (hlen : len ≤ bs.length)
    (hcrc : crc8 (bs.take (len - 1)) = byteAt bs (len - 1)) : bs.take len = withCrc (bs.take (len - 1)) := by
  have hlast : len - 1 < bs.length := by omega
  calc bs.take len = bs.take (len - 1 + 1) := by rw [Nat.sub_add_cancel hpos]
    _ = bs.take (len - 1) ++ [bs[len - 1]] := List.take_succ_eq_append_getElem hlast
    _ = withCrc (bs.take (len - 1)) := by rw [withCrc, hcrc, byteAt, List.getD_eq_getElem _ _ hlast]

/-- What the decoder reads an instruction from is a frame built by `withCrc`, followed by the rest. -/
theorem exists_withCrc_of_decode {dev : Byte} {bs rest : List Byte} {i : Instr}
    (h : decode dev bs = .ok (i, rest)) : ∃ b, bs = withCrc b ++ rest := by
  obtain ⟨-, -, cmd, len, -, hneeded, hchecked⟩ := decode_eq_ok h
  obtain ⟨hframe, hlen⟩ := neededLen_eq_some hneeded
  obtain ⟨hcrc, -, rfl⟩ := checkedFrame_eq_ok hchecked
  have hpos : 0 < len := hframe ▸ frameLen_pos cmd (frameDataLen bs)
  refine ⟨bs.take (len - 1), ?_⟩
  rw [← take_eq_withCrc hpos hlen hcrc, List.take_append_drop]

/-- Settles O9: the encoder's frame is `withCrc` by definition, the decoder's by `exists_withCrc_of_decode`. -/
theorem lastByteIsTheCrcOfTheRest : Obligations.LastByteIsTheCrcOfTheRest := by
  refine ⟨fun dev i => ?encoder, fun dev bs rest i h => ?decoder⟩
  case encoder => rw [encode, dropLast_withCrc, getLast?_withCrc]
  case decoder =>
    obtain ⟨b, hb⟩ := exists_withCrc_of_decode h
    exact ⟨withCrc b, hb, by rw [dropLast_withCrc, getLast?_withCrc]⟩

end Sys2Proof.Proofs.FrameCrc
end

section
/-! The CRC-8 generator over natural numbers (40_crc8.md rules R110, R111): reading the 16-bit accumulator as a number
turns each operation of the generator into the operation of rule R110, one lemma per layer: round, rounds, byte,
sequence. -/

namespace Sys2Proof.Proofs.CrcNat

open Sys2Proof.Machine Sys2Proof.Stmt

/-- The constant of rule R111 as a number. -/
theorem toNat_crcConstant : crcConstant.toNat = 0x8380 := by decide

/-- The 16-bit shift is the doubling that drops the bit above bit 15. -/
theorem toNat_shiftLeft_one (acc : Word16) : (acc <<< 1).toNat = acc.toNat * 2 % 65536 := by
  rw [BitVec.toNat_shiftLeft, Nat.shiftLeft_eq, pow_one]

/-- The conditional exclusive-or of a round depends on the same bit 15. -/
theorem toNat_crcRound (acc : Word16) : (crcRound acc).toNat = crcRoundNat acc.toNat := by
  rw [crcRound, crcRoundNat, toNat_shiftLeft_one, BitVec.testBit_toNat]
  cases acc.getLsbD 15 with
  | false => rfl
  | true => simp only [if_true, BitVec.toNat_xor, toNat_crcConstant]

theorem toNat_crcRounds (n : Nat) (acc : Word16) : (crcRounds n acc).toNat = crcRoundNat^[n] acc.toNat := by
  induction n generalizing acc with
  | zero => rfl
  | succ n ih => rw [crcRounds, ih, toNat_crcRound, Function.iterate_succ_apply]

/-- A byte placed in bits 15..8 is 256 times its value: a byte is too small for the shift to lose a bit. -/
theorem toNat_highByte (b : Byte) : (b.setWidth 16 <<< 8).toNat = b.toNat * 256 := by
  have hb : b.toNat < 256 := b.isLt
  rw [BitVec.toNat_shiftLeft, BitVec.toNat_setWidth, Nat.shiftLeft_eq]
  omega

theorem toNat_crcByte (acc : Word16) (b : Byte) :
    (crcByte acc b).toNat = crcRoundNat^[8] (acc.toNat ^^^ b.toNat * 256) := by
  rw [crcByte, toNat_crcRounds, BitVec.toNat_xor, toNat_highByte]

/-- Stated for every starting accumulator, which the induction needs: each byte hands its accumulator to the next. -/
theorem toNat_crcFold (acc : Word16) (s : List Byte) :
    (crcFold acc s).toNat = crcAccNat acc.toNat (s.map BitVec.toNat) := by
  induction s generalizing acc with
  | nil => rfl
  | cons b s ih =>
    calc (crcFold acc (b :: s)).toNat = (crcFold (crcByte acc b) s).toNat := rfl
      _ = crcAccNat (crcByte acc b).toNat (s.map BitVec.toNat) := ih _
      _ = crcAccNat acc.toNat ((b :: s).map BitVec.toNat) := by rw [toNat_crcByte, List.map_cons, crcAccNat]

/-- The result is the accumulator's high byte. -/
theorem toNat_crc8 (s : List Byte) : (crc8 s).toNat = (crcFold 0 s).toNat / 256 := by
  have hacc : (crcFold 0 s).toNat < 65536 := (crcFold 0 s).isLt
  rw [crc8, BitVec.toNat_setWidth, BitVec.toNat_ushiftRight, Nat.shiftRight_eq_div_pow]
  omega

/-- Settles O1: for every sequence by `toNat_crcFold` from accumulator 0; the worked example (V1) by running the
generator's 24 rounds. -/
theorem crc8IsTheStatedAlgorithm : Obligations.Crc8IsTheStatedAlgorithm := by
  refine ⟨fun s => ?sequence, ?workedExample⟩
  case sequence =>
    rw [toNat_crc8, toNat_crcFold]
    rfl
  case workedExample => simp [crc8, crcFold, crcByte, crcRounds, crcRound, crcConstant]

end Sys2Proof.Proofs.CrcNat
end

section
/-! The receive side of a poll step (41_rx_framer.md): the stale check alone, and what the step does when the
recognition loop stops at the front of the buffer, either with a frame or because the bytes there are not yet one. -/

namespace Sys2Proof.Proofs.RxFramer

open Sys2Proof.Machine Sys2Proof.Stmt

/-! ### Drain and stale check -/

/-- A buffer whose age is past the timeout is discarded (rule R122). -/
theorem staleCheck_of_stale {s : State} (hbuf : s.rxBuf ≠ []) (hage : s.config.staleMs < s.clock - s.lastRxTime) :
    staleCheck s = s.setRxBuf [] := if_pos ⟨hbuf, hage⟩

/-- The comparison of rule R122 is strict: at the timeout itself the buffer is kept. -/
theorem staleCheck_of_fresh {s : State} (hage : s.clock - s.lastRxTime ≤ s.config.staleMs) : staleCheck s = s :=
  if_neg fun ⟨_, hstale⟩ => BitVec.not_lt.mpr hage hstale

/-- A drain that moves a byte leaves a buffer of age 0 (rule R121, decision D7). -/
theorem drain_age {s : State} (hmoved : 0 < drainCount s) : (drain s).clock - (drain s).lastRxTime = 0 := by
  have hclock : (drain s).clock = s.clock := by rw [drain_eq]
  have hstamp : (drain s).lastRxTime = s.clock := by
    rw [drain_eq]
    exact if_pos hmoved
  rw [hclock, hstamp]
  exact BitVec.sub_self _

/-- Drain and stale check together write the receive side only (rules R121, R122). -/
theorem staleCheck_drain_eq (s : State) : staleCheck (drain s) =
    { s with
      rxBuf := (staleCheck (drain s)).rxBuf
      rxFifo := (staleCheck (drain s)).rxFifo
      lastRxTime := (staleCheck (drain s)).lastRxTime } := by
  rw [staleCheck_eq, drain_eq]

/-- Settles O13: `staleCheck_of_stale` and `staleCheck_of_fresh`, the second also for a buffer just drained into, whose
age is 0. -/
theorem staleBufferIsDiscardedStrictlyAfterTheTimeout :
    Obligations.StaleBufferIsDiscardedStrictlyAfterTheTimeout := by
  refine fun s => ⟨staleCheck_of_stale, staleCheck_of_fresh, fun hmoved => staleCheck_of_fresh ?_⟩
  rw [drain_age hmoved]
  exact BitVec.le_def.mpr (Nat.zero_le _)

/-! ### The recognition loop at the front of the buffer -/

/-- A frame the decoder reads ends the loop at once (rule R131). -/
theorem recognise_of_ok {dev : Byte} {i : Instr} {bs rest : List Byte} (h : decode dev bs = .ok (i, rest)) :
    recognise dev bs = (.frame i, bs) := by
  cases bs with
  | nil => cases h
  | cons b bs => rw [recognise, h]

/-- Too few bytes end the loop at once, and none is dropped (rules R125, R127, R128). -/
theorem recognise_of_waiting {dev : Byte} {bs : List Byte}
    (h : decode dev bs = .error .tooShort ∨ decode dev bs = .error .incomplete) :
    recognise dev bs = (.wait, bs) := by
  cases bs with
  | nil => rfl
  | cons b bs =>
    obtain hshort | hincomplete := h
    · rw [recognise, hshort]
    · rw [recognise, hincomplete]

theorem setRxBuf_rxBuf_self (s : State) : s.setRxBuf s.rxBuf = s := rfl

/-- Where the loop drops nothing, the poll step settles what it ends in on the state after drain and stale check. -/
theorem pollStep_of_recognise {s : State} {r : Recognition}
    (h : recognise s.config.devAddr (staleCheck (drain s)).rxBuf = (r, (staleCheck (drain s)).rxBuf)) :
    pollStep s = settle r (staleCheck (drain s)) := by
  have hconfig : (staleCheck (drain s)).config = s.config := by rw [staleCheck_drain_eq]
  simp only [pollStep, recognised, received, hconfig, h, setRxBuf_rxBuf_self]

/-- A step whose event is a poll invocation is a poll step (rule R120). -/
theorem step_of_ready_poll {s : State} (h : Ready s .poll) : step s = pollStep (begun s) := by
  obtain ⟨hconfig, hevent⟩ := h
  rw [step_of_config hconfig, hevent]
  rfl

/-- Settles O11: the loop ends at once with the decoded frame, and settling a frame is dispatch, then clear. -/
theorem stepRunsTheDecodedInstruction : Obligations.StepRunsTheDecodedInstruction := by
  intro s i rest hready hdecode
  rw [step_of_ready_poll hready]
  exact pollStep_of_recognise (recognise_of_ok hdecode)

/-! ### The beginning of a command's frame -/

/-- The encoder's two length bytes are read back as the length they were made from (rules R60, R82). -/
theorem le16_lo8_hi8 (v : Word16) : le16 (lo8 v) (hi8 v) = v := by
  ext k hk
  by_cases hlow : k < 8
  · simp [le16, lo8, hi8, hlow, BitVec.getLsbD_eq_getElem hk]
  · have hhigh : 8 + (k - 8) = k := by omega
    have hbyte : k - 8 < 8 := by omega
    simp [le16, lo8, hi8, hlow, hhigh, hbyte, hk]

/-- A byte before the cut is the byte of the whole. -/
theorem byteAt_take {bs : List Byte} {k n : Nat} (h : n < k) : byteAt (bs.take k) n = byteAt bs n := by
  simp only [byteAt, List.getD_eq_getElem?_getD, List.getElem?_take_of_lt h]

/-- Six bytes of a frame show its length field (rule R127). -/
theorem frameDataLen_take {bs : List Byte} {k : Nat} (h : 6 ≤ k) : frameDataLen (bs.take k) = frameDataLen bs := by
  simp only [frameDataLen, byteAt_take (show 4 < k by omega), byteAt_take (show 5 < k by omega)]

/-- Only a 0xDE frame's length depends on the length field (rule R86). -/
theorem frameLen_congr {cmd : HostCmd} {len len' : Word16} (h : cmd = .wra → len = len') :
    frameLen cmd len = frameLen cmd len' := by
  cases cmd with
  | wra => rw [h rfl]
  | _ => rfl

/-- The length field of an encoded Array write gives the length of its frame (rules R85, R86). -/
theorem frameLen_encode_wra {dev : Byte} {addr : Word16} {data : List Byte} (hdata : data.length ≤ 65535) :
    frameLen .wra (frameDataLen (encode dev (.wra addr data))) = (encode dev (.wra addr data)).length := by
  have hfield : frameDataLen (encode dev (.wra addr data)) = BitVec.ofNat 16 data.length := le16_lo8_hi8 _
  have hfits : (BitVec.ofNat 16 data.length).toNat = data.length := by
    rw [BitVec.toNat_ofNat, Nat.mod_eq_of_lt (by omega)]
  rw [hfield, frameLen, hfits]
  simp only [encode, withCrc, Instr.body, arrayBody, addrBody, List.length_append, List.length_cons, List.length_nil]
  omega

/-- A command's frame names a command, and its length is the one the decoder computes for that command (rules R83 to
R86). -/
theorem exists_hostCmd_of_fromHost {i : Instr} (hdir : i.fromHost = true) (hwf : i.wellFormed = true) (dev : Byte) :
    ∃ cmd, hostCmd i.code = some cmd ∧
      frameLen cmd (frameDataLen (encode dev i)) = (encode dev i).length := by
  cases i with
  | poll flag => exact ⟨.poll, rfl, rfl⟩
  | read addr => exact ⟨.read, rfl, rfl⟩
  | wrb addr d0 => exact ⟨.wrb, rfl, rfl⟩
  | wrw addr d0 d1 => exact ⟨.wrw, rfl, rfl⟩
  | wrd addr d0 d1 d2 d3 => exact ⟨.wrd, rfl, rfl⟩
  | wrc addr d0 d1 d2 d3 => exact ⟨.wrc, rfl, rfl⟩
  | wra addr data => exact ⟨.wra, rfl, frameLen_encode_wra (of_decide_eq_true hwf)⟩
  | _ => cases hdir

/-- The beginning of a frame is never enough for the decoder: the length field is missing, or the length it gives is
not reached (rules R127, R128). -/
theorem neededLen_take {cmd : HostCmd} {f : List Byte} {k : Nat}
    (hlen : frameLen cmd (frameDataLen f) = f.length) (hk : k < f.length) : neededLen cmd (f.take k) = none := by
  have htake : (f.take k).length = k := List.length_take_of_le hk.le
  unfold neededLen
  split
  next => rfl
  next hfield =>
    have hsame : frameLen cmd (frameDataLen (f.take k)) = frameLen cmd (frameDataLen f) :=
      frameLen_congr fun hwra => frameDataLen_take <| Nat.le_of_not_lt fun hshort =>
        hfield ⟨hwra, htake.trans_lt hshort⟩
    rw [if_pos (by omega)]

theorem decode_of_short {dev : Byte} {bs : List Byte} (h : bs.length < 4) : decode dev bs = .error .tooShort :=
  if_pos h

/-- The decoder waits on every proper beginning of a command's frame: address and command byte are right, so only the
length is missing (rules R125, R127, R128). -/
theorem decode_take_encode {dev : Byte} {i : Instr} {k : Nat} (hdir : i.fromHost = true)
    (hwf : i.wellFormed = true) (hk : k < (encode dev i).length) :
    decode dev ((encode dev i).take k) = .error .tooShort ∨
      decode dev ((encode dev i).take k) = .error .incomplete := by
  obtain ⟨cmd, hcmd, hlen⟩ := exists_hostCmd_of_fromHost hdir hwf dev
  have htake : ((encode dev i).take k).length = k := List.length_take_of_le hk.le
  by_cases hshort : k < 4
  · exact Or.inl (decode_of_short (htake.trans_lt hshort))
  · have hdev : byteAt ((encode dev i).take k) 0 = dev := byteAt_take (by omega)
    have hcode : byteAt ((encode dev i).take k) 1 = i.code := byteAt_take (by omega)
    right
    rw [decode, if_neg (mt htake.symm.trans_lt hshort), if_neg (not_not.mpr hdev), hcode, hcmd]
    simp only [neededLen_take hlen hk]

/-- Settles O14: the decoder asks for more bytes in both cases, so the loop waits and the step answers the state after
drain and stale check. -/
theorem incompleteFrameWaits : Obligations.IncompleteFrameWaits := by
  intro s hready hbuf
  have hwaiting : decode (begun s).config.devAddr (staleCheck (drain (begun s))).rxBuf = .error .tooShort ∨
      decode (begun s).config.devAddr (staleCheck (drain (begun s))).rxBuf = .error .incomplete := by
    obtain hshort | ⟨i, k, hdir, hwf, hk, htake⟩ := hbuf
    · exact Or.inl (decode_of_short hshort)
    · rw [htake]
      exact decode_take_encode hdir hwf hk
  refine ⟨staleCheck (drain (begun s)), ?_, rfl, ?_⟩
  · rw [step_of_ready_poll hready]
    exact pollStep_of_recognise (recognise_of_waiting hwaiting)
  · rw [staleCheck_drain_eq]
    exact ⟨rfl, rfl, fun _ => rfl, rfl, rfl, rfl⟩

end Sys2Proof.Proofs.RxFramer
end

section
/-! A write and the read after it (43_read.md rules R155 to R158, 44_write.md rule R160): the accepted write leaves the
item where `Lookup` finds it and its bytes where `Push` samples them, so the push frame carries the bytes written. -/

namespace Sys2Proof.Proofs.WriteRead

open Sys2Proof.Machine Sys2Proof.Stmt

/-! ### Finding an item -/

/-- `Lookup` answers the first item with the address (rule R28). -/
theorem lookup_of_foundAt {s : State} {addr : Word16} {i : Nat} {it : Item} (h : FoundAt s addr i it) :
    lookup addr s.items = some i := by
  obtain ⟨hitem, haddr, hfirst⟩ := h
  obtain ⟨hlt, rfl⟩ := List.getElem?_eq_some_iff.1 hitem
  rw [lookup, List.findIdx?_eq_some_iff_getElem]
  refine ⟨hlt, by simpa using haddr, fun j hj => ?_⟩
  simpa using hfirst j hj _ (List.getElem?_eq_getElem (hj.trans hlt))

/-- Storing a value moves no item and changes no address: the item is found where it was, with its new length. -/
theorem foundAt_storeValue {s : State} {addr : Word16} {i : Nat} {it : Item} (data : List Byte)
    (h : FoundAt s addr i it) : FoundAt (storeValue i data s) addr i { it with len := data.length } := by
  obtain ⟨hitem, haddr, hfirst⟩ := h
  refine ⟨by simp [hitem], haddr, fun j hj other hother => hfirst j hj other ?_⟩
  simpa [List.getElem?_modify, hj.ne'] using hother

/-! ### The frames of a trace -/

theorem framesOf_append (a b : List TraceEvent) : framesOf (a ++ b) = framesOf a ++ framesOf b :=
  List.filterMap_append

/-- One `Send` puts one frame on the line, whether or not the direction signal is driven around it. -/
theorem framesOf_linkEvents (config : Config) (f : Frame) (time : Word32) :
    framesOf (linkEvents config f time) = [f] := by
  unfold linkEvents
  split
  · rfl
  · rfl

theorem framesOf_afterSend (f : Frame) (time clk : Word32) (s : State) :
    framesOf (afterSend f time clk s).trace = framesOf s.trace ++ [f] := by
  rw [afterSend_trace, framesOf_append, framesOf_linkEvents]

/-- `OnWrite` is no frame. -/
theorem framesOf_emit_onWrite (i : Nat) (s : State) :
    framesOf (s.emit (.onWrite i)).trace = framesOf s.trace := by
  simp [State.emit, framesOf, eventFrame]

/-! ### A write and a read of a found item -/

/-- A write that fits stores the data, calls `OnWrite` and sends `ACK` (rules R160, R166). -/
theorem writeItem_of_fits {s : State} {cmd : WriteCmd} {addr : Word16} {data : List Byte} {i : Nat} {it : Item}
    (hlive : linkLive s) (hfound : FoundAt s addr i it) (hfits : storeFits cmd data it = true) :
    ∃ time clk, writeItem cmd addr data s =
      .next (afterSend (statusFrame s 0xE0 0x00) time clk ((storeValue i data s).emit (.onWrite i))) := by
  have hitem : s.items[i]? = some it := hfound.1
  obtain ⟨time, clk, -, hsend⟩ :=
    transmit_live .ack (s := (storeValue i data s).emit (.onWrite i)) hlive
  refine ⟨time, clk, ?_⟩
  simp only [writeItem, lookup_of_foundAt hfound, hitem, hfits, if_true]
  exact hsend

/-- A read of an item's address pushes the item (rules R155, R156). -/
theorem exec_read_of_foundAt {s : State} {addr : Word16} {i : Nat} {it : Item} (hlive : linkLive s)
    (hfound : FoundAt s addr i it) :
    ∃ time clk, exec (.read addr) s =
      .next (afterSend (encode s.config.devAddr (pushFrame i it s.mem)) time clk (setDirty i false s)) := by
  have hitem : s.items[i]? = some it := hfound.1
  obtain ⟨time, clk, -, hpush⟩ := pushItem_live hitem hlive
  refine ⟨time, clk, ?_⟩
  show execRead addr s = _
  rw [execRead, lookup_of_foundAt hfound]
  exact hpush

/-! ### The two bytes of a Word -/

/-- The push frame of a Word item samples the two bytes stored last, in the order they came (rules R162, R183). -/
theorem pushFrame_word_writeBytes {m : Memory} {it : Item} (i : Nat) (d0 d1 : Byte) (hwf : Memory.wf m)
    (hkind : it.kind = .word) :
    pushFrame i it (Memory.writeBytes m (payloadBase i) [d0, d1]) = .pushw it.addr d0 d1 := by
  simp [pushFrame, hkind, Memory.read_writeBytes _ m _ _ hwf]

/-- Settles O33: the write leaves the item found at its index and its two bytes in the payload, and the read pushes that
item from there. -/
theorem wordWrittenThenReadComesBack : Obligations.WordWrittenThenReadComesBack := by
  intro s addr d0 d1 i it hwf hlive hfound hkind
  have hfits : storeFits .wrw [d0, d1] it = true := by simp [storeFits, accepts, hkind]
  obtain ⟨time, clk, hwrite⟩ := writeItem_of_fits hlive hfound hfits
  refine ⟨_, hwrite, ?_, fun hlive' => ?_⟩
  · rw [framesOf_afterSend, framesOf_emit_onWrite, storeValue_trace]
  · obtain ⟨time', clk', hread⟩ := exec_read_of_foundAt hlive' (foundAt_storeValue [d0, d1] hfound)
    refine ⟨_, hread, ?_⟩
    have hpush : pushFrame i { it with len := [d0, d1].length } (Memory.writeBytes s.mem (payloadBase i) [d0, d1]) =
        .pushw addr d0 d1 := by
      obtain ⟨-, rfl, -⟩ := hfound
      exact pushFrame_word_writeBytes i d0 d1 hwf hkind
    rw [framesOf_afterSend, setDirty_trace, afterSend_mem, State.emit_mem, storeValue_mem, hpush]
    rfl

end Sys2Proof.Proofs.WriteRead
end

section
/-! The write commands at an item that is found (44_write.md rules R160 to R167): the command's kinds and, for `WRA`,
the capacity decide between the store with its `ACK` and a `WRREJ` that touches nothing. -/

namespace Sys2Proof.Proofs.WriteCommands

open Sys2Proof.Machine Sys2Proof.Stmt

/-! ### What fits -/

@[simp] theorem storeFits_wrb {data : List Byte} {it : Item} :
    storeFits .wrb data it = true ↔ it.kind = .byte := by
  simp [storeFits, accepts]

@[simp] theorem storeFits_wrw {data : List Byte} {it : Item} :
    storeFits .wrw data it = true ↔ it.kind = .word := by
  simp [storeFits, accepts]

@[simp] theorem storeFits_wrd {data : List Byte} {it : Item} :
    storeFits .wrd data it = true ↔ fourByte it.kind = true := by
  simp [storeFits, accepts]

@[simp] theorem storeFits_wrc {data : List Byte} {it : Item} :
    storeFits .wrc data it = true ↔ fourByte it.kind = true := by
  simp [storeFits, accepts]

@[simp] theorem storeFits_wra {data : List Byte} {it : Item} :
    storeFits .wra data it = true ↔ it.kind = .array ∧ data.length ≤ it.cap := by
  simp [storeFits, accepts]

theorem not_fourByte_of_mem {k : Kind} (h : k ∈ [Kind.byte, .word, .array]) : ¬ fourByte k = true := by
  simp only [List.mem_cons, List.not_mem_nil, or_false] at h
  obtain rfl | rfl | rfl := h <;> decide

/-- A write its item does not take is an `ExecWrite` whose check fails (rules R160, R167, R169). -/
theorem exists_writeItem_of_doesNotFit {ins : Instr} {addr : Word16} {data : List Byte} {it : Item}
    (hwrite : WriteOf ins addr data) (hmisfit : DoesNotFit ins it) :
    ∃ cmd, (∀ s, exec ins s = writeItem cmd addr data s) ∧ ¬ storeFits cmd data it = true := by
  obtain ⟨d0, rfl, rfl⟩ | ⟨d0, d1, rfl, rfl⟩ | ⟨d0, d1, d2, d3, rfl, rfl⟩ | ⟨d0, d1, d2, d3, rfl, rfl⟩ | rfl :=
    hwrite
  · exact ⟨.wrb, fun _ => rfl, mt storeFits_wrb.1 hmisfit⟩
  · exact ⟨.wrw, fun _ => rfl, mt storeFits_wrw.1 hmisfit⟩
  · exact ⟨.wrd, fun _ => rfl, mt storeFits_wrd.1 (not_fourByte_of_mem hmisfit)⟩
  · exact ⟨.wrc, fun _ => rfl, mt storeFits_wrc.1 (not_fourByte_of_mem hmisfit)⟩
  · -- `WRA` is the one command whose check also bounds the length (rule R165)
    refine ⟨.wra, fun _ => rfl, fun hfits => ?_⟩
    obtain ⟨hkind, hlen⟩ := storeFits_wra.1 hfits
    exact hmisfit.elim (· hkind) (Nat.not_lt.2 hlen)

/-! ### The write of a found item -/

/-- At a found item only the check is left (rule R160). -/
theorem writeItem_of_foundAt {s : State} {addr : Word16} {i : Nat} {it : Item} (cmd : WriteCmd) (data : List Byte)
    (hfound : FoundAt s addr i it) :
    writeItem cmd addr data s =
      if storeFits cmd data it then transmit .ack ((storeValue i data s).emit (.onWrite i))
      else raise .writeRejected s := by
  have hitem : s.items[i]? = some it := hfound.1
  simp only [writeItem, WriteRead.lookup_of_foundAt hfound, hitem]

/-- An allowed time of `write_bytes` keeps the turnaround delay (rule R202). -/
theorem turnMs_le_of_txTimeOk {s : State} {time : Word32} (h : txTimeOk s time = true) (hpos : 0 < s.config.turnMs) :
    s.config.turnMs ≤ time - s.lastRxTime :=
  (of_decide_eq_true h).resolve_left ((BitVec.pos_iff_ne_zero _).1 hpos)

/-- The store puts the data at the item's payload and leaves every other byte (rule R10). -/
theorem storedBytes_storeValue {s : State} (i : Nat) (data : List Byte) (hwf : Memory.wf s.mem) :
    StoredBytes s (storeValue i data s) i data := by
  constructor
  · intro k hk
    have hin : payloadBase i ≤ payloadBase i + k ∧ payloadBase i + k < payloadBase i + data.length := by omega
    rw [storeValue_mem, Memory.read_writeBytes _ _ _ _ hwf, if_pos hin, Nat.add_sub_cancel_left]
    exact List.getD_eq_getElem _ _ hk
  · intro a hout
    rw [storeValue_mem, Memory.read_writeBytes _ _ _ _ hwf, if_neg hout]

theorem sameOtherItems_storeValue (s : State) (i : Nat) (data : List Byte) :
    SameOtherItems s (storeValue i data s) i := by
  intro j hj
  rw [storeValue_items, List.getElem?_modify_ne _ _ hj.symm]

/-- A write that fits is accepted (rules R160, R166). -/
theorem acceptedWrite_of_fits {s : State} {cmd : WriteCmd} {addr : Word16} {data : List Byte} {i : Nat} {it : Item}
    (hwf : Memory.wf s.mem) (hlive : linkLive s) (hfound : FoundAt s addr i it)
    (hfits : storeFits cmd data it = true) :
    ∃ t, writeItem cmd addr data s = .next t ∧ AcceptedWrite s t i it data := by
  obtain ⟨time, clk, htime, hsend⟩ := transmit_live .ack (s := (storeValue i data s).emit (.onWrite i)) hlive
  refine ⟨_, (writeItem_of_foundAt cmd data hfound).trans ((if_pos hfits).trans hsend), ?_⟩
  have hstored : (storeValue i data s).items[i]? = some { it with len := data.length } :=
    (WriteRead.foundAt_storeValue data hfound).1
  exact ⟨storedBytes_storeValue i data hwf, ⟨it.dirty, id, hstored⟩, sameOtherItems_storeValue s i data,
    ⟨time, turnMs_le_of_txTimeOk htime, rfl, rfl, rfl⟩, ⟨rfl, rfl, rfl⟩, ⟨rfl, rfl, rfl, rfl, rfl, rfl, rfl⟩⟩

/-- A write that does not fit sends `WRREJ` and nothing else (rules R167, R234). -/
theorem onlySends_of_misfit {s : State} {cmd : WriteCmd} {addr : Word16} {data : List Byte} {i : Nat} {it : Item}
    (hlive : linkLive s) (hfound : FoundAt s addr i it) (hmisfit : ¬ storeFits cmd data it = true) :
    ∃ t, writeItem cmd addr data s = .next t ∧ OnlySends s t (statusFrame s 0xE5 0x00) := by
  obtain ⟨time, clk, htime, hraise⟩ := raise_live (x := .writeRejected) rfl hlive
  refine ⟨_, (writeItem_of_foundAt cmd data hfound).trans ((if_neg hmisfit).trans hraise), ?_⟩
  have htrace : (afterSend (statusFrame s 0xE5 0x00) time clk s).trace =
      s.trace ++ [] ++ linkEvents s.config (statusFrame s 0xE5 0x00) time := by
    rw [afterSend_trace, List.append_nil]
  exact ⟨⟨time, turnMs_le_of_txTimeOk htime, htrace, rfl, rfl⟩, rfl, fun _ => rfl, ⟨rfl, rfl, rfl⟩,
    ⟨rfl, rfl, rfl, rfl, rfl, rfl, rfl⟩⟩

/-! ### The statements -/

/-- Settles O31: each of the five commands is an `ExecWrite` whose check fails before anything is stored. -/
theorem rejectedWriteChangesNoItem : Obligations.RejectedWriteChangesNoItem := by
  intro s addr ins data i it hlive hwrite hfound hmisfit
  obtain ⟨cmd, hexec, hcheck⟩ := exists_writeItem_of_doesNotFit hwrite hmisfit
  rw [hexec]
  exact onlySends_of_misfit hlive hfound hcheck

/-- Settles O27: a Byte item passes the check of `WRB`; the other kinds are a case of O31. -/
theorem wrbStoresOneByte : Obligations.WrbStoresOneByte := by
  intro s addr d0 i it hwf hlive hfound
  constructor
  · intro hkind
    exact acceptedWrite_of_fits hwf hlive hfound (storeFits_wrb.2 hkind)
  · have hwrite : WriteOf (.wrb addr d0) addr [d0] := .inl ⟨d0, rfl, rfl⟩
    exact rejectedWriteChangesNoItem s addr _ _ i it hlive hwrite hfound

/-- Settles O28: a Word item passes the check of `WRW`; the other kinds are a case of O31. -/
theorem wrwStoresTwoBytes : Obligations.WrwStoresTwoBytes := by
  intro s addr d0 d1 i it hwf hlive hfound
  constructor
  · intro hkind
    exact acceptedWrite_of_fits hwf hlive hfound (storeFits_wrw.2 hkind)
  · have hwrite : WriteOf (.wrw addr d0 d1) addr [d0, d1] := .inr (.inl ⟨d0, d1, rfl, rfl⟩)
    exact rejectedWriteChangesNoItem s addr _ _ i it hlive hwrite hfound

/-- Settles O30: an Array item passes the check of `WRA` up to its capacity; a longer write and the other kinds are a
case of O31. -/
theorem wraStoresUpToTheCapacity : Obligations.WraStoresUpToTheCapacity := by
  intro s addr data i it hwf hlive hfound
  constructor
  · intro hkind hlen
    exact acceptedWrite_of_fits hwf hlive hfound (storeFits_wra.2 ⟨hkind, hlen⟩)
  · have hwrite : WriteOf (.wra addr data) addr data := .inr (.inr (.inr (.inr rfl)))
    exact rejectedWriteChangesNoItem s addr _ _ i it hlive hwrite hfound

end Sys2Proof.Proofs.WriteCommands
end

section
/-! The layout of a push frame (45_tx_frames.md rules R179, R182 to R186): the header follows the item's kind, and the
data bytes a fixed kind samples are its whole value because its length is the length of its kind (rule R35). -/

namespace Sys2Proof.Proofs.PushLayout

open Sys2Proof.Machine Sys2Proof.Stmt

/-- Array is the one kind without a fixed length (rule R7). -/
@[simp] theorem klen_eq_none_iff {k : Kind} : klen k = none ↔ k = .array := by
  cases k <;> simp [klen]

theorem ne_array_of_klen {k : Kind} {n : Nat} (h : klen k = some n) : k ≠ .array := by
  rintro rfl
  cases h

/-- The value of an item of the table is its bytes in the payload store (rule R10). -/
theorem valueOf_of_getElem? {s : State} {i : Nat} {it : Item} (h : s.items[i]? = some it) :
    valueOf s i = Memory.readBytes s.mem (payloadBase i) it.len := by
  rw [valueOf, h]

/-! ### The push instruction of an item -/

@[simp] theorem code_pushFrame (i : Nat) (it : Item) (m : Memory) :
    (pushFrame i it m).code = pushCmd it.kind := by
  unfold pushFrame
  cases it.kind <;> rfl

theorem pushFrame_array {it : Item} (i : Nat) (m : Memory) (h : it.kind = .array) :
    pushFrame i it m = .pusha it.addr (Memory.readBytes m (payloadBase i) it.len) := by
  rw [pushFrame, h]

/-- A fixed kind pushes as many payload bytes as its kind has, in the payload's order (rules R182 to R185). -/
theorem body_pushFrame_of_klen {it : Item} {n : Nat} (i : Nat) (m : Memory) (h : klen it.kind = some n) :
    (pushFrame i it m).body = addrBody it.addr (Memory.readBytes m (payloadBase i) n) := by
  unfold pushFrame
  cases hkind : it.kind with
  | array => exact absurd hkind (ne_array_of_klen h)
  | byte | word | dword | float | hsb | rgb | rgbw =>
    rw [hkind] at h
    cases h
    rfl

/-! ### The stated bytes -/

theorem pushFrameBytes_array {s : State} {it : Item} (x : List Byte) (h : it.kind = .array) :
    pushFrameBytes s it x = withCrc (s.config.devAddr :: pushCmd it.kind :: arrayBody it.addr x) := by
  rw [pushFrameBytes, if_pos h]
  rfl

theorem pushFrameBytes_of_ne_array {s : State} {it : Item} (x : List Byte) (h : it.kind ≠ .array) :
    pushFrameBytes s it x = withCrc (s.config.devAddr :: pushCmd it.kind :: addrBody it.addr x) := by
  rw [pushFrameBytes, if_neg h]
  rfl

/-- Settles O37: the length invariant leaves an Array, whose frame says its length, or a fixed kind, whose samples are
the value only because the item's length is its kind's. -/
theorem pushFrameHasTheItemsLayout : Obligations.PushFrameHasTheItemsLayout := by
  rintro s i it hitem ⟨-, hvariable | hfixed⟩
  · have harray : it.kind = .array := klen_eq_none_iff.1 hvariable
    rw [encode, code_pushFrame, pushFrame_array i s.mem harray, pushFrameBytes_array _ harray,
      valueOf_of_getElem? hitem]
    rfl
  · rw [encode, code_pushFrame, body_pushFrame_of_klen i s.mem hfixed,
      pushFrameBytes_of_ne_array _ (ne_array_of_klen hfixed), valueOf_of_getElem? hitem]

end Sys2Proof.Proofs.PushLayout
end

section
/-! The CRC-8 generator as an 8-bit register (40_crc8.md section 2): the low byte of the 16-bit accumulator is always
0, so the generator is a register that each byte permutes. The residue and the detection of a flipped bit need no more
than that the permutation keeps 0 and is injective. -/

namespace Sys2Proof.Proofs.CrcRegister

open Sys2Proof.Machine Sys2Proof.Stmt

/-- The accumulator whose high byte is the 8-bit register and whose low byte is 0. -/
def wide (c : Byte) : Word16 := c.setWidth 16 <<< 8

/-! ### The accumulator is the register -/

theorem wide_xor (c d : Byte) : wide c ^^^ wide d = wide (c ^^^ d) := by
  simp [wide, BitVec.shiftLeft_xor_distrib, BitVec.setWidth_xor]

/-- One round on the accumulator is one round on its high byte (rules R110, R113). -/
theorem crcRound_wide : ∀ c : Byte, crcRound (wide c) = wide (polyRound c) := by
  decide

theorem crcRounds_wide (n : Nat) (c : Byte) : crcRounds n (wide c) = wide (polyRound^[n] c) := by
  induction n generalizing c with
  | zero => rfl
  | succ n ih => rw [crcRounds, crcRound_wide, ih, Function.iterate_succ_apply]

theorem crcByte_wide (c b : Byte) : crcByte (wide c) b = wide (polyRound^[8] (c ^^^ b)) := by
  rw [← crcRounds_wide, ← wide_xor]
  rfl

theorem crcFold_wide (c : Byte) (s : List Byte) :
    crcFold (wide c) s = wide (s.foldl (fun c b => polyRound^[8] (c ^^^ b)) c) := by
  induction s generalizing c with
  | nil => rfl
  | cons b s ih =>
    calc crcFold (wide c) (b :: s) = crcFold (crcByte (wide c) b) s := rfl
      _ = crcFold (wide (polyRound^[8] (c ^^^ b))) s := by rw [crcByte_wide]
      _ = _ := ih _

/-- The high byte of the accumulator is the register. -/
theorem highByte_wide (c : Byte) : (wide c >>> 8).setWidth 8 = c := by
  ext k hk
  have hlow : 8 + k < 16 := by omega
  have hwide : k < 16 := by omega
  simpa [wide, hlow, hwide] using BitVec.getLsbD_eq_getElem hk

theorem crc8_eq_polyCrc (s : List Byte) : crc8 s = polyCrc s :=
  calc crc8 s = (crcFold (wide 0) s >>> 8).setWidth 8 := rfl
    _ = polyCrc s := by rw [crcFold_wide, highByte_wide, polyCrc]

/-- Settles O2: `crc8_eq_polyCrc`, and the check value by running the register over the nine digits. -/
theorem crc8EqualsPolynomialDivision : Obligations.Crc8EqualsPolynomialDivision :=
  ⟨crc8_eq_polyCrc, by decide +kernel⟩

/-! ### A round loses nothing -/

/-- The inverse of a round: the bottom bit says whether the constant was subtracted, and returns to the top. -/
def unround (d : Byte) : Byte := if d.getLsbD 0 then (d ^^^ 0x07) >>> 1 ||| 0x80 else d >>> 1

theorem unround_polyRound : Function.LeftInverse unround polyRound := by
  unfold Function.LeftInverse
  decide

/-- The eight rounds of one byte are injective in the register. -/
theorem rounds_injective : Function.Injective polyRound^[8] :=
  unround_polyRound.injective.iterate 8

theorem rounds_eq_zero {c : Byte} : polyRound^[8] c = 0 ↔ c = 0 := by
  have hzero : polyRound^[8] 0 = 0 := by decide
  exact ⟨fun h => rounds_injective (h.trans hzero.symm), fun h => h ▸ hzero⟩

/-- Settles O3: the appended byte is exclusive-ored into the register that holds the CRC, and only 0 is taken to 0. -/
theorem crc8ResidueIsZeroExactlyForTheRightByte : Obligations.Crc8ResidueIsZeroExactlyForTheRightByte := by
  intro s b
  have hlast : polyCrc (s ++ [b]) = polyRound^[8] (polyCrc s ^^^ b) := by simp [polyCrc]
  rw [crc8_eq_polyCrc, crc8_eq_polyCrc, hlast, rounds_eq_zero]
  exact BitVec.xor_eq_zero_iff.trans eq_comm

/-! ### A flipped bit -/

/-- Different registers stay different while the same bytes follow. -/
theorem polyFold_injective (s : List Byte) :
    Function.Injective fun c : Byte => s.foldl (fun c b => polyRound^[8] (c ^^^ b)) c := by
  induction s with
  | nil => exact Function.injective_id
  | cons b s ih =>
    intro c d h
    exact BitVec.xor_left_inj b |>.1 (rounds_injective (ih h))

/-- Sequences that differ in one byte have different CRCs, whatever stands before and after it. -/
theorem polyCrc_ne_of_ne {b b' : Byte} (front back : List Byte) (h : b' ≠ b) :
    polyCrc (front ++ b' :: back) ≠ polyCrc (front ++ b :: back) := by
  intro heq
  simp only [polyCrc, List.foldl_append, List.foldl_cons] at heq
  exact h (BitVec.xor_right_inj _ |>.1 (rounds_injective (polyFold_injective back heq)))

/-- A single bit below bit 8 is no zero byte. -/
theorem bit_ne_zero {k : Nat} (hk : k < 8) : 1#8 <<< k ≠ 0 := by
  interval_cases k <;> decide

/-- Settles O4: a flipped bit changes its byte, and `polyCrc_ne_of_ne` does the rest. -/
theorem crc8DetectsEverySingleBitFlip : Obligations.Crc8DetectsEverySingleBitFlip := by
  intro s j hj k hk
  have hflip : s[j] ^^^ (1#8 <<< k) ≠ s[j] := by
    intro h
    exact bit_ne_zero hk (BitVec.xor_right_inj s[j] |>.1 (h.trans (BitVec.xor_zero).symm))
  have hsplit : s = s.take j ++ s[j] :: s.drop (j + 1) := by
    rw [← List.drop_eq_getElem_cons hj, List.take_append_drop]
  rw [crc8_eq_polyCrc, crc8_eq_polyCrc, List.set_eq_take_append_cons_drop, if_pos hj]
  conv_rhs => rw [hsplit]
  exact polyCrc_ne_of_ne _ _ hflip

end Sys2Proof.Proofs.CrcRegister
end

section
/-! Decoder and encoder (30_encoding.md sections 1 to 4, 41_rx_framer.md section 2): the length, the CRC check and the
operand fields of an encoded frame, whatever follows it; and the frame that each set of operands was read from. -/

namespace Sys2Proof.Proofs.Codec

open Sys2Proof.Machine Sys2Proof.Stmt

/-! ### Bytes of a frame with something after it -/

/-- A byte before the end of a frame is not changed by what follows the frame. -/
theorem byteAt_append {f rest : List Byte} {n : Nat} (h : n < f.length) : byteAt (f ++ rest) n = byteAt f n := by
  simp only [byteAt, List.getD_append _ _ _ _ h]

theorem frameDataLen_append {f rest : List Byte} (h : 6 ≤ f.length) :
    frameDataLen (f ++ rest) = frameDataLen f := by
  rw [frameDataLen, byteAt_append (by omega), byteAt_append (by omega)]
  rfl

/-- A 0xDE frame has its length field. -/
theorem seven_le_frameLen_wra (len : Word16) : 7 ≤ frameLen .wra len := Nat.le_add_right _ _

/-- The decoder finds the length of a whole frame, whatever follows it (rules R86, R127, R128). -/
theorem neededLen_append {cmd : HostCmd} {f : List Byte} (rest : List Byte)
    (hlen : frameLen cmd (frameDataLen f) = f.length) : neededLen cmd (f ++ rest) = some f.length := by
  have hfield : cmd = .wra → 6 ≤ f.length := by
    rintro rfl
    exact hlen ▸ (seven_le_frameLen_wra _).trans' (by omega)
  have hsame : frameLen cmd (frameDataLen (f ++ rest)) = f.length :=
    (RxFramer.frameLen_congr fun h => frameDataLen_append (hfield h)).trans hlen
  have hlong : ¬ (cmd = .wra ∧ (f ++ rest).length < 6) := by
    rintro ⟨hcmd, hshort⟩
    have := hfield hcmd
    rw [List.length_append] at hshort
    omega
  rw [neededLen, if_neg hlong, hsame, if_neg (by simp)]

@[simp] theorem length_withCrc (b : List Byte) : (withCrc b).length = b.length + 1 := by
  simp [withCrc]

/-- The check of rule R129 on a whole frame compares its last byte with the CRC of the bytes before. -/
theorem checkedFrame_append_singleton (instr : List Byte → Instr) (b : List Byte) (k : Byte) (rest : List Byte) :
    checkedFrame instr (b.length + 1) (b ++ [k] ++ rest) =
      if crc8 b = k then .ok (instr (b ++ [k]), rest) else .error (.crcMismatch (crc8 b)) := by
  have hfront : (b ++ [k] ++ rest).take b.length = b := by simp
  have hlast : byteAt (b ++ [k] ++ rest) b.length = k := by simp [byteAt]
  have hframe : (b ++ [k] ++ rest).take (b.length + 1) = b ++ [k] := List.take_left' (by simp)
  have hrest : (b ++ [k] ++ rest).drop (b.length + 1) = rest := List.drop_left' (by simp)
  rw [checkedFrame, Nat.add_sub_cancel, hfront, hlast, hframe, hrest]

/-- The encoder's frame passes the check. -/
theorem checkedFrame_encode (instr : List Byte → Instr) (dev : Byte) (i : Instr) (rest : List Byte) :
    checkedFrame instr (encode dev i).length (encode dev i ++ rest) = .ok (instr (encode dev i), rest) := by
  rw [encode, length_withCrc, withCrc, checkedFrame_append_singleton, if_pos rfl]

/-! ### What the decoder does with the front of a frame -/

theorem length_encode (dev : Byte) (i : Instr) : (encode dev i).length = i.body.length + 3 := by
  simp [encode]

theorem body_ne_nil (i : Instr) : i.body ≠ [] := by
  cases i <;> simp [Instr.body, addrBody, arrayBody]

/-- Every frame has the four bytes that a decision needs (rule R125). -/
theorem four_le_length_encode (dev : Byte) (i : Instr) : 4 ≤ (encode dev i).length := by
  have := List.length_pos_iff.2 (body_ne_nil i)
  rw [length_encode]
  omega

/-- With address and command byte in place and the whole frame there, the decoder is left with the CRC (rule R129). -/
theorem decode_of_neededLen {dev c : Byte} {cmd : HostCmd} {bs : List Byte} {len : Nat} (hlen : 2 ≤ bs.length)
    (hcmd : hostCmd c = some cmd) (hneeded : neededLen cmd (dev :: c :: bs) = some len) :
    decode dev (dev :: c :: bs) = checkedFrame (hostInstr cmd) len (dev :: c :: bs) := by
  have hshort : ¬ (dev :: c :: bs).length < 4 := by simp; omega
  have hdev : byteAt (dev :: c :: bs) 0 = dev := rfl
  have hcode : byteAt (dev :: c :: bs) 1 = c := rfl
  rw [decode, if_neg hshort, hdev, if_neg (not_not.2 rfl), hcode, hcmd]
  simp only [hneeded]

/-- A whole frame goes to the CRC check. -/
theorem decode_eq_checkedFrame {dev c : Byte} {cmd : HostCmd} {f : List Byte} (rest : List Byte)
    (hlen : 2 ≤ f.length) (hcmd : hostCmd c = some cmd)
    (hframe : frameLen cmd (frameDataLen (dev :: c :: f)) = f.length + 2) :
    decode dev (dev :: c :: f ++ rest) =
      checkedFrame (hostInstr cmd) (f.length + 2) (dev :: c :: f ++ rest) := by
  have hneeded : neededLen cmd (dev :: c :: (f ++ rest)) = some (f.length + 2) := neededLen_append rest hframe
  have hlong : 2 ≤ (f ++ rest).length := by rw [List.length_append]; omega
  exact decode_of_neededLen hlong hcmd hneeded

/-! ### The operands of an encoded frame -/

@[simp] theorem lo8_le16 (lo hi : Byte) : lo8 (le16 lo hi) = lo := by
  ext k hk
  simp [lo8, le16]

@[simp] theorem hi8_le16 (lo hi : Byte) : hi8 (le16 lo hi) = hi := by
  ext k hk
  have hhigh : ¬ 8 + k < 8 := by omega
  have hwide : 8 + k < 16 := by omega
  simp [hi8, le16, hwide, hk, BitVec.getLsbD_eq_getElem]

/-- The address field is read back as it was written, in every format that has one (rule R82 (a)). -/
theorem frameAddr_addrBody (dev c : Byte) (addr : Word16) (data : List Byte) :
    frameAddr (dev :: c :: (addrBody addr data ++ [crc8 (dev :: c :: addrBody addr data)])) = addr :=
  RxFramer.le16_lo8_hi8 addr

/-- The data of an Array frame is read back, as its length fits the length field (rules R82 (b), R85). -/
theorem frameData_arrayBody (dev c k : Byte) (addr : Word16) {data : List Byte} (hdata : data.length ≤ 65535) :
    frameData (dev :: c :: (arrayBody addr data ++ [k])) = data := by
  have hfield : frameDataLen (dev :: c :: (arrayBody addr data ++ [k])) = BitVec.ofNat 16 data.length :=
    RxFramer.le16_lo8_hi8 _
  have hfits : (BitVec.ofNat 16 data.length).toNat = data.length := by
    rw [BitVec.toNat_ofNat, Nat.mod_eq_of_lt (by omega)]
  rw [frameData, hfield, hfits]
  exact List.take_left' rfl

/-- Each command's operands are read back from its frame (rules R82 to R85). -/
theorem exists_hostInstr_encode {i : Instr} (hdir : i.fromHost = true) (hwf : i.wellFormed = true) (dev : Byte) :
    ∃ cmd, hostCmd i.code = some cmd ∧ frameLen cmd (frameDataLen (encode dev i)) = (encode dev i).length ∧
      hostInstr cmd (encode dev i) = i := by
  obtain ⟨cmd, hcmd, hlen⟩ := RxFramer.exists_hostCmd_of_fromHost hdir hwf dev
  refine ⟨cmd, hcmd, hlen, ?_⟩
  cases i with
  | poll flag =>
    cases hcmd
    rfl
  | read addr =>
    cases hcmd
    exact congrArg Instr.read (frameAddr_addrBody dev _ addr _)
  | wrb addr d0 =>
    cases hcmd
    exact congrArg (Instr.wrb · d0) (frameAddr_addrBody dev _ addr _)
  | wrw addr d0 d1 =>
    cases hcmd
    exact congrArg (Instr.wrw · d0 d1) (frameAddr_addrBody dev _ addr _)
  | wrd addr d0 d1 d2 d3 =>
    cases hcmd
    exact congrArg (Instr.wrd · d0 d1 d2 d3) (frameAddr_addrBody dev _ addr _)
  | wrc addr d0 d1 d2 d3 =>
    cases hcmd
    exact congrArg (Instr.wrc · d0 d1 d2 d3) (frameAddr_addrBody dev _ addr _)
  | wra addr data =>
    cases hcmd
    exact congrArg₂ Instr.wra (frameAddr_addrBody dev _ addr _)
      (frameData_arrayBody dev _ _ addr (of_decide_eq_true hwf))
  | _ => cases hdir

/-- Settles O6: the length is found, the CRC matches, and the operands are read back. -/
theorem encodedCommandDecodesToItself : Obligations.EncodedCommandDecodesToItself := by
  intro dev i rest hdir hwf
  obtain ⟨cmd, hcmd, hlen, hoperands⟩ := exists_hostInstr_encode hdir hwf dev
  have hbody : 2 ≤ (i.body ++ [crc8 (dev :: i.code :: i.body)]).length := by
    have := List.length_pos_iff.2 (body_ne_nil i)
    simp
    omega
  calc decode dev (encode dev i ++ rest)
      = checkedFrame (hostInstr cmd) (encode dev i).length (encode dev i ++ rest) :=
        decode_eq_checkedFrame rest hbody hcmd hlen
    _ = .ok (i, rest) := by rw [checkedFrame_encode, hoperands]

/-! ### Frames of the device, as the host reads them -/

/-- The push frame with the layout and the operands of a write command (rule R88). -/
def asPush : Instr → Option Instr
  | .wrb addr d0 => some (.pushb addr d0)
  | .wrw addr d0 d1 => some (.pushw addr d0 d1)
  | .wrd addr d0 d1 d2 d3 => some (.pushd addr d0 d1 d2 d3)
  | .wrc addr d0 d1 d2 d3 => some (.pushc addr d0 d1 d2 d3)
  | .wra addr data => some (.pusha addr data)
  | _ => none

/-- The host reads a push frame as the device reads the write command of the same bytes. -/
theorem pushInstr_eq_asPush (cmd : HostCmd) (f : List Byte) : pushInstr cmd f = asPush (hostInstr cmd f) := by
  cases cmd <;> rfl

/-- A frame of the device is a status frame of one data byte, or has the bytes of a write command (rules R87 to R89). -/
theorem status_or_push {i : Instr} (hdir : i.fromHost = false) (hwf : i.wellFormed = true) :
    (isStatusCode i.code = true ∧ ∃ d, i.body = [d] ∧ statusInstr i.code d = some i) ∨
    (isStatusCode i.code = false ∧ ∃ w, w.fromHost = true ∧ w.wellFormed = true ∧ asPush w = some i ∧
      ∀ dev, encode dev w = encode dev i) := by
  cases i with
  | pushb addr d0 => exact .inr ⟨rfl, .wrb addr d0, rfl, rfl, rfl, fun _ => rfl⟩
  | pushw addr d0 d1 => exact .inr ⟨rfl, .wrw addr d0 d1, rfl, rfl, rfl, fun _ => rfl⟩
  | pushd addr d0 d1 d2 d3 => exact .inr ⟨rfl, .wrd addr d0 d1 d2 d3, rfl, rfl, rfl, fun _ => rfl⟩
  | pushc addr d0 d1 d2 d3 => exact .inr ⟨rfl, .wrc addr d0 d1 d2 d3, rfl, rfl, rfl, fun _ => rfl⟩
  | pusha addr data => exact .inr ⟨rfl, .wra addr data, rfl, hwf, rfl, fun _ => rfl⟩
  | ack | badcrc c | nodata | badflag | noaddr | wrrej | hello => exact .inl ⟨rfl, _, rfl, rfl⟩
  | _ => cases hdir

/-- The host checks the CRC of a status frame after the data byte is found to be one the device sends. -/
theorem decodeReply_status {dev c d k : Byte} {rest : List Byte} {i : Instr} (hcode : isStatusCode c = true)
    (hstatus : statusInstr c d = some i) :
    decodeReply dev (dev :: c :: d :: k :: rest) = checkedFrame (fun _ => i) 4 (dev :: c :: d :: k :: rest) := by
  have hshort : ¬ (dev :: c :: d :: k :: rest).length < 4 := by simp
  have hdev : byteAt (dev :: c :: d :: k :: rest) 0 = dev := rfl
  have h1 : byteAt (dev :: c :: d :: k :: rest) 1 = c := rfl
  have h2 : byteAt (dev :: c :: d :: k :: rest) 2 = d := rfl
  rw [decodeReply, if_neg hshort, hdev, if_neg (not_not.2 rfl), h1, h2, if_pos hcode]
  simp only [hstatus]

/-- The host checks the CRC of a whole push frame (rule R88). -/
theorem decodeReply_push {dev c : Byte} {bs : List Byte} {cmd : HostCmd} {len : Nat} {i : Instr}
    (hlen : 2 ≤ bs.length) (hcode : isStatusCode c = false) (hcmd : hostCmd c = some cmd)
    (hneeded : neededLen cmd (dev :: c :: bs) = some len)
    (hoperands : pushInstr cmd ((dev :: c :: bs).take len) = some i) :
    decodeReply dev (dev :: c :: bs) = checkedFrame (fun _ => i) len (dev :: c :: bs) := by
  have hshort : ¬ (dev :: c :: bs).length < 4 := by simp; omega
  have hdev : byteAt (dev :: c :: bs) 0 = dev := rfl
  have h1 : byteAt (dev :: c :: bs) 1 = c := rfl
  rw [decodeReply, if_neg hshort, hdev, if_neg (not_not.2 rfl), h1, if_neg (by simp [hcode]), hcmd]
  simp only [hneeded, hoperands]

/-- The bytes after the command byte are at least two: a body byte and the CRC. -/
theorem two_le_length_tail (dev : Byte) (i : Instr) (rest : List Byte) :
    2 ≤ (i.body ++ [crc8 (dev :: i.code :: i.body)] ++ rest).length := by
  have := List.length_pos_iff.2 (body_ne_nil i)
  simp
  omega

/-- Settles O7: a status frame is read from its command and data byte, a push frame by way of the write command of the
same bytes. -/
theorem encodedReplyDecodesToItself : Obligations.EncodedReplyDecodesToItself := by
  intro dev i rest hdir hwf
  obtain ⟨hcode, d, hbody, hstatus⟩ | ⟨hcode, w, hwdir, hwwf, hpush, hbytes⟩ := status_or_push hdir hwf
  · have hlen : (encode dev i).length = 4 := by rw [length_encode, hbody]; rfl
    have hframe : encode dev i ++ rest = dev :: i.code :: d :: crc8 [dev, i.code, d] :: rest := by
      rw [encode, hbody]
      rfl
    calc decodeReply dev (encode dev i ++ rest)
        = checkedFrame (fun _ => i) (encode dev i).length (encode dev i ++ rest) := by
          rw [hframe, hlen]
          exact decodeReply_status hcode hstatus
      _ = .ok (i, rest) := checkedFrame_encode _ dev i rest
  · obtain ⟨cmd, hcmd, hlen, hoperands⟩ := exists_hostInstr_encode hwdir hwwf dev
    have hsame : w.code = i.code := congrArg (byteAt · 1) (hbytes dev)
    rw [hsame] at hcmd
    rw [hbytes dev] at hlen hoperands
    have hread : pushInstr cmd ((encode dev i ++ rest).take (encode dev i).length) = some i := by
      rw [List.take_left' rfl, pushInstr_eq_asPush, hoperands, hpush]
    calc decodeReply dev (encode dev i ++ rest)
        = checkedFrame (fun _ => i) (encode dev i).length (encode dev i ++ rest) :=
          decodeReply_push (two_le_length_tail dev i rest) hcode hcmd (neededLen_append rest hlen) hread
      _ = .ok (i, rest) := checkedFrame_encode _ dev i rest

/-! ### What the decoder reads is an encoded frame -/

/-- A command byte that is recognised is that command's own (rules R83 to R85, R90). -/
theorem hostCmd_eq_some {c : Byte} {cmd : HostCmd} : hostCmd c = some cmd ↔ c = hostCode cmd := by
  constructor
  · unfold hostCmd
    intro h
    repeat' split at h
    all_goals cases h
    all_goals assumption
  · rintro rfl
    cases cmd <;> rfl

/-- A sequence is its bytes in order. -/
theorem eq_map_byteAt {bs : List Byte} {n : Nat} (h : bs.length = n) : bs = (List.range n).map (byteAt bs) := by
  apply List.ext_getElem (by simp [h])
  intro k hk hk'
  simp [byteAt, hk]

/-- The instruction read from a whole frame has the frame's body: the fields are cut where the encoder joins them
(rules R82 to R86). -/
theorem body_hostInstr {cmd : HostCmd} {dev c k : Byte} {body : List Byte}
    (hlen : frameLen cmd (frameDataLen (dev :: c :: (body ++ [k]))) = body.length + 3) :
    (hostInstr cmd (dev :: c :: (body ++ [k]))).body = body := by
  cases cmd with
  | poll =>
    obtain ⟨b0, rfl⟩ : ∃ b0, body = [b0] := ⟨_, eq_map_byteAt (Nat.add_right_cancel hlen.symm : _ = 1)⟩
    rfl
  | read =>
    obtain ⟨b0, b1, rfl⟩ : ∃ b0 b1, body = [b0, b1] :=
      ⟨_, _, eq_map_byteAt (Nat.add_right_cancel hlen.symm : _ = 2)⟩
    simp [hostInstr, Instr.body, addrBody, frameAddr, byteAt]
  | wrb =>
    obtain ⟨b0, b1, b2, rfl⟩ : ∃ b0 b1 b2, body = [b0, b1, b2] :=
      ⟨_, _, _, eq_map_byteAt (Nat.add_right_cancel hlen.symm : _ = 3)⟩
    simp [hostInstr, Instr.body, addrBody, frameAddr, byteAt]
  | wrw =>
    obtain ⟨b0, b1, b2, b3, rfl⟩ : ∃ b0 b1 b2 b3, body = [b0, b1, b2, b3] :=
      ⟨_, _, _, _, eq_map_byteAt (Nat.add_right_cancel hlen.symm : _ = 4)⟩
    simp [hostInstr, Instr.body, addrBody, frameAddr, byteAt]
  | wrd | wrc =>
    obtain ⟨b0, b1, b2, b3, b4, b5, rfl⟩ : ∃ b0 b1 b2 b3 b4 b5, body = [b0, b1, b2, b3, b4, b5] :=
      ⟨_, _, _, _, _, _, eq_map_byteAt (Nat.add_right_cancel hlen.symm : _ = 6)⟩
    simp [hostInstr, Instr.body, addrBody, frameAddr, byteAt]
  | wra =>
    have hfields : (body.take 4).length = 4 := by
      rw [frameLen] at hlen
      exact List.length_take_of_le (by omega)
    obtain ⟨b0, b1, b2, b3, hfront⟩ : ∃ b0 b1 b2 b3, body.take 4 = [b0, b1, b2, b3] :=
      ⟨_, _, _, _, eq_map_byteAt hfields⟩
    obtain ⟨data, rfl⟩ : ∃ data, body = [b0, b1, b2, b3] ++ data :=
      ⟨body.drop 4, by rw [← hfront, List.take_append_drop]⟩
    -- the length field, bytes `b2 b3`, counts the data
    have hdata : (le16 b2 b3).toNat = data.length := by
      have h : 7 + (le16 b2 b3).toNat = ([b0, b1, b2, b3] ++ data).length + 3 := hlen
      simp at h
      omega
    have hread : frameData (dev :: c :: ([b0, b1, b2, b3] ++ data ++ [k])) = data := by
      show (data ++ [k]).take (le16 b2 b3).toNat = data
      exact List.take_left' hdata.symm
    rw [hostInstr, hread, Instr.body, arrayBody, ← hdata, BitVec.ofNat_toNat]
    simp [addrBody, frameAddr, byteAt]

theorem code_hostInstr (cmd : HostCmd) (f : List Byte) : (hostInstr cmd f).code = hostCode cmd := by
  cases cmd <;> rfl

theorem fromHost_hostInstr (cmd : HostCmd) (f : List Byte) : (hostInstr cmd f).fromHost = true := by
  cases cmd <;> rfl

/-- A 16-bit length field gives an Array frame at most 65535 data bytes (rule R82 (b)). -/
theorem wellFormed_hostInstr (cmd : HostCmd) (f : List Byte) : (hostInstr cmd f).wellFormed = true := by
  cases cmd with
  | wra =>
    have hfield : (frameDataLen f).toNat < 65536 := (frameDataLen f).isLt
    refine decide_eq_true ?_
    rw [frameData, List.length_take]
    omega
  | _ => rfl

/-- A whole frame with address, command byte and CRC in place is the encoding of what the decoder reads from it. -/
theorem encode_hostInstr {cmd : HostCmd} {dev : Byte} {body : List Byte}
    (hlen : frameLen cmd (frameDataLen (withCrc (dev :: hostCode cmd :: body))) = body.length + 3) :
    encode dev (hostInstr cmd (withCrc (dev :: hostCode cmd :: body))) = withCrc (dev :: hostCode cmd :: body) := by
  rw [encode, code_hostInstr]
  exact congrArg (fun body => withCrc (dev :: hostCode cmd :: body)) (body_hostInstr hlen)

/-- The two bytes before the body are the ones the decoder has compared. -/
theorem eq_cons_cons {bs : List Byte} {n : Nat} (hn : 2 ≤ n) (h : n ≤ bs.length) :
    ∃ body, bs.take n = byteAt bs 0 :: byteAt bs 1 :: body ∧ body.length + 2 = n := by
  obtain _ | ⟨a, _ | ⟨b, bs⟩⟩ := bs
  · simp at h
    omega
  · simp at h
    omega
  · obtain ⟨n, rfl⟩ := Nat.exists_eq_add_of_le' hn
    refine ⟨bs.take n, rfl, ?_⟩
    simp at h ⊢
    omega

theorem four_le_frameLen (cmd : HostCmd) (len : Word16) : 4 ≤ frameLen cmd len := by
  cases cmd <;> simp only [frameLen] <;> omega

/-- Settles O8: the checks that passed say that the bytes begin with a frame as the encoder builds it. -/
theorem decodedBytesAreTheEncoding : Obligations.DecodedBytesAreTheEncoding := by
  intro dev bs rest i h
  obtain ⟨-, hdev, cmd, len, hcmd, hneeded, hchecked⟩ := FrameCrc.decode_eq_ok h
  obtain ⟨hframe, hlen⟩ := FrameCrc.neededLen_eq_some hneeded
  obtain ⟨hcrc, rfl, rfl⟩ := FrameCrc.checkedFrame_eq_ok hchecked
  have hfour : 4 ≤ len := hframe ▸ four_le_frameLen cmd _
  obtain ⟨body, hbody, hbodylen⟩ := eq_cons_cons (bs := bs) (n := len - 1) (by omega) (by omega)
  rw [hdev, hostCmd_eq_some.1 hcmd] at hbody
  have htake : bs.take len = withCrc (dev :: hostCode cmd :: body) :=
    hbody ▸ FrameCrc.take_eq_withCrc (by omega) hlen hcrc
  have hwhole : frameLen cmd (frameDataLen (withCrc (dev :: hostCode cmd :: body))) = body.length + 3 := by
    have hsame : frameLen cmd (frameDataLen (bs.take len)) = frameLen cmd (frameDataLen bs) := by
      refine RxFramer.frameLen_congr fun hwra => RxFramer.frameDataLen_take ?_
      subst hwra
      exact hframe ▸ (seven_le_frameLen_wra _).trans' (by omega)
    rw [← htake, hsame, ← hframe]
    omega
  refine ⟨fromHost_hostInstr cmd _, wellFormed_hostInstr cmd _, ?_⟩
  rw [htake, encode_hostInstr hwhole, ← htake, List.take_append_drop]

/-! ### Recognised command bytes -/

/-- The seven recognised command bytes (rule R90). -/
theorem hostCmd_eq_none {c : Byte} : hostCmd c = none ↔ c ∉ [0xD0, 0xD1, 0xDA, 0xDB, 0xDC, 0xDD, 0xDE] := by
  constructor
  · intro h hmem
    simp only [List.mem_cons, List.not_mem_nil, or_false] at hmem
    obtain rfl | rfl | rfl | rfl | rfl | rfl | rfl := hmem <;> cases h
  · intro h
    simp only [List.mem_cons, List.not_mem_nil, or_false, not_or] at h
    obtain ⟨h0, h1, h2, h3, h4, h5, h6⟩ := h
    simp only [hostCmd, h0, h1, h2, h3, h4, h5, h6, if_false]

/-- The CRC check has no opinion on the command. -/
theorem checkedFrame_ne_unknownCommand {instr : List Byte → Instr} {len : Nat} {bs : List Byte} {c : Byte} :
    checkedFrame instr len bs ≠ .error (.unknownCommand c) := by
  unfold checkedFrame
  split <;> simp

theorem decode_of_hostCmd_none {dev c : Byte} {bs : List Byte} (hlen : 2 ≤ bs.length) (hcmd : hostCmd c = none) :
    decode dev (dev :: c :: bs) = .error (.unknownCommand c) := by
  have hshort : ¬ (dev :: c :: bs).length < 4 := by simp; omega
  have hdev : byteAt (dev :: c :: bs) 0 = dev := rfl
  have hcode : byteAt (dev :: c :: bs) 1 = c := rfl
  rw [decode, if_neg hshort, hdev, if_neg (not_not.2 rfl), hcode, hcmd]

/-- A recognised command whose frame is not all there makes the decoder wait (rules R127, R128). -/
theorem decode_of_neededLen_none {dev c : Byte} {cmd : HostCmd} {bs : List Byte} (hlen : 2 ≤ bs.length)
    (hcmd : hostCmd c = some cmd) (hneeded : neededLen cmd (dev :: c :: bs) = none) :
    decode dev (dev :: c :: bs) = .error .incomplete := by
  have hshort : ¬ (dev :: c :: bs).length < 4 := by simp; omega
  have hdev : byteAt (dev :: c :: bs) 0 = dev := rfl
  have hcode : byteAt (dev :: c :: bs) 1 = c := rfl
  rw [decode, if_neg hshort, hdev, if_neg (not_not.2 rfl), hcode, hcmd]
  simp only [hneeded]

/-- Settles O10: a recognised command byte leads to a wait or to the CRC check, never to 'unknown command'. -/
theorem decoderRecognisesExactlySevenCommands : Obligations.DecoderRecognisesExactlySevenCommands := by
  intro dev c bs hlen
  rw [← hostCmd_eq_none]
  refine ⟨fun h => ?_, decode_of_hostCmd_none hlen⟩
  cases hcmd : hostCmd c with
  | none => rfl
  | some cmd =>
    cases hneeded : neededLen cmd (dev :: c :: bs) with
    | none =>
      rw [decode_of_neededLen_none hlen hcmd hneeded] at h
      cases h
    | some len =>
      rw [decode_of_neededLen hlen hcmd hneeded] at h
      exact absurd h checkedFrame_ne_unknownCommand

/-- A frame with nothing after it. -/
theorem decode_of_eq_encode {dev : Byte} {i : Instr} {bs : List Byte} (hdir : i.fromHost = true)
    (hwf : i.wellFormed = true) (h : bs = encode dev i) : decode dev bs = .ok (i, []) := by
  have := encodedCommandDecodesToItself dev i [] hdir hwf
  rwa [List.append_nil, ← h] at this

/-- Settles O5: each written-out frame is what the encoder builds for the instruction it stands for, CRC included, so O6
and O7 read it. -/
theorem writtenOutFramesDecode : Obligations.WrittenOutFramesDecode := by
  refine ⟨decode_of_eq_encode rfl rfl ?_, decode_of_eq_encode rfl rfl ?_, decode_of_eq_encode rfl rfl ?_,
    decode_of_eq_encode rfl rfl ?_, decode_of_eq_encode rfl rfl ?_, ?_⟩
  case refine_6 =>
    have hframe : encode 0x01 (.badcrc 0xD1) ++ [] = [0x01, 0xE1, 0xD1, 0x04] := by decide +kernel
    rw [← hframe]
    exact encodedReplyDecodesToItself 0x01 (.badcrc 0xD1) [] rfl rfl
  all_goals decide +kernel

end Sys2Proof.Proofs.Codec
end

section
/-! Sending (46_link_timing.md sections 1 and 2, 60_exceptions.md sections 1 and 4): what a `Send` adds to a state,
when it is the only place an instruction can stop in, and the status frames, which are nothing but a `Send`. -/

namespace Sys2Proof.Proofs.Sending

open Sys2Proof.Machine Sys2Proof.Stmt

/-! ### What a `Send` adds -/

/-- A `Send` from a state that differs from `s` neither in the line nor in the trace, but for the events `evs`. -/
theorem sends_afterSend {s u : State} {evs : List TraceEvent} {f : Frame} {time : Word32} (clk : Word32)
    (htime : txTimeOk s time = true) (hconfig : u.config = s.config) (htrace : u.trace = s.trace ++ evs)
    (hdir : u.dir = s.dir) (hlink : u.link = s.link) : Sends s (afterSend f time clk u) evs f := by
  refine ⟨time, WriteCommands.turnMs_le_of_txTimeOk htime, ?_, ?_, ?_⟩
  · rw [afterSend_trace, htrace, hconfig]
  · rw [afterSend_dir, hconfig, hdir]
  · rw [afterSend_link, hlink]

theorem onlySends_afterSend {s : State} (f : Frame) {time : Word32} (clk : Word32) (htime : txTimeOk s time = true) :
    OnlySends s (afterSend f time clk s) f :=
  ⟨sends_afterSend clk htime rfl (List.append_nil _).symm rfl rfl, rfl, fun _ => rfl, ⟨rfl, rfl, rfl⟩,
    ⟨rfl, rfl, rfl, rfl, rfl, rfl, rfl⟩⟩

/-- An enabled outcome sends its response and does nothing else (rule R230). -/
theorem raise_onlySends {x : Exceptional} {s : State} (hlive : linkLive s)
    (henabled : responseEnabled s.config x = true) :
    ∃ t, raise x s = .next t ∧ OnlySends s t (encode s.config.devAddr (responseOf x)) := by
  obtain ⟨time, clk, htime, hraise⟩ := raise_live henabled hlive
  exact ⟨_, hraise, onlySends_afterSend _ clk htime⟩

/-- An outcome whose response is disabled does nothing (rule R230). -/
theorem raise_of_disabled {x : Exceptional} {s : State} (h : responseEnabled s.config x = false) :
    raise x s = .next s := by
  simp [raise, h]

/-! ### Where a `Send` stops -/

theorem send_of_sendStop {f : Frame} {s : State} {e : Fault} (h : sendStop s = some e) : send f s = .fault e := by
  obtain ⟨e', hstop, hsend⟩ | ⟨hnone, -⟩ := send_spec f s
  · rw [hsend, Option.some.inj (hstop.symm.trans h)]
  · rw [hnone] at h
    cases h

/-- While the wait applies it lets no time through but its own end (rule R201). -/
theorem mustWait_iff {s : State} :
    mustWait s = true ↔ 0 < s.config.turnMs ∧ s.clock - s.lastRxTime < s.config.turnMs := decide_eq_true_iff

/-- Settles O42: each hang is the stop that `sendStop` names, and `Send` stops there. -/
theorem sendStopsWhenFlushOrClockNeverReturns : Obligations.SendStopsWhenFlushOrClockNeverReturns := by
  intro s f delay more
  constructor
  · intro hflow hlink
    exact send_of_sendStop (by simp [sendStop, linkChoice, hlink, hflow, flushHangs])
  · intro hturn hwait hlink
    exact send_of_sendStop (by simp [sendStop, linkChoice, hlink, mustWait_iff.2 ⟨hturn, hwait⟩])

/-- Settles O40: `Send` is `afterSend`, which drives the line only with flow control. -/
theorem sendDrivesTheDirectionLineOnlyWithFlowControl :
    Obligations.SendDrivesTheDirectionLineOnlyWithFlowControl := by
  intro s f hlive
  obtain ⟨time, clk, -, hsend⟩ := send_live (f := f) hlive
  refine ⟨_, time, hsend, fun hflow => ?_, fun hflow => ?_⟩
  · simp [linkEvents, hflow]
  · simp [linkEvents, hflow]

/-! ### The earliest choice -/

/-- When a `Send` writes if the environment adds no delay of its own (rules R201, R202, decision D33). -/
def earliest (s : State) : Word32 := if mustWait s then s.lastRxTime + s.config.turnMs else s.clock

theorem turnaround_completes (delay d : Word32) (s : State) :
    turnaround (.completes delay d) s = .next (s.setClock (earliest s)) := by
  unfold turnaround earliest
  split
  · simp
  · rfl

theorem latency_zero (d : Word32) (s : State) : latency (.completes 0 d) s = s := by
  have hclock : s.clock + choiceDelay (.completes 0 d) = s.clock := BitVec.add_zero _
  unfold latency
  rw [hclock]
  split
  · rfl
  · rfl

theorem writeOut_zero (delay : Word32) (f : Frame) (s : State) :
    writeOut (.completes delay 0) f s = .next
      { s with
        trace := s.trace ++ linkEvents s.config f s.clock
        dir := if s.config.flowCtrl then false else s.dir } := by
  unfold writeOut linkEvents
  by_cases hflow : s.config.flowCtrl = true
  · simp [hflow, flush, writeFrame, assertDirection, deassertDirection, State.emit, State.setDir, State.setClock]
  · simp [hflow, writeFrame, State.emit]

/-- With no choice scripted a `Send` writes at the earliest time and ends then. -/
theorem send_of_link_nil {s : State} (f : Frame) (h : s.link = []) :
    send f s = .next (afterSend f (earliest s) (earliest s) s) := by
  have hchoice : linkChoice s = .completes 0 0 := by rw [linkChoice, h]; rfl
  have hearliest : earliest (s.setLink s.link.tail) = earliest s := rfl
  rw [send, hchoice, turnaround_completes, andThen_next, latency_zero, writeOut_zero, hearliest]
  rfl

/-- Settles O39: the earliest time is the end of the wait while the wait applies, and the clock's reading else. -/
theorem sendWaitsForTheTurnaroundDelay : Obligations.SendWaitsForTheTurnaroundDelay := by
  intro s f hlink
  constructor
  · intro hturn hwait
    have htime : earliest s = s.lastRxTime + s.config.turnMs := if_pos (mustWait_iff.2 ⟨hturn, hwait⟩)
    exact ⟨_, send_of_link_nil f hlink, by rw [afterSend_trace, htime], by rw [afterSend_clock, htime], rfl⟩
  · intro hready
    have htime : earliest s = s.clock := by
      refine if_neg fun hwait => ?_
      obtain ⟨hturn, hage⟩ := mustWait_iff.1 hwait
      exact hready.elim (fun h => (BitVec.pos_iff_ne_zero _).1 hturn h) (fun h => BitVec.not_lt.2 h hage)
    exact ⟨_, send_of_link_nil f hlink, by rw [afterSend_trace, htime], by rw [afterSend_clock, htime], rfl⟩

/-! ### An instruction stops only in its `Send` -/

/-- The result is not a refusal, and if it is a fault, it is the one the next `Send` of `s` stops with. -/
def StopsOnlyInSend (s : State) (r : Result) : Prop :=
  (∀ e, r ≠ .refused e) ∧ ∀ e, r = .fault e → sendStop s = some e

theorem stopsOnlyInSend_next (s t : State) : StopsOnlyInSend s (.next t) :=
  ⟨nofun, nofun⟩

/-- What is sent from a state with the same line stops where `s` stops. -/
theorem stopsOnlyInSend_transmit {s u : State} (i : Instr) (h : sendStop u = sendStop s) :
    StopsOnlyInSend s (transmit i u) :=
  ⟨fun e => send_not_refused _ u e, fun _ hfault => h ▸ send_eq_fault hfault⟩

theorem stopsOnlyInSend_andThen {s : State} {r : Result} (k : State → State) (h : StopsOnlyInSend s r) :
    StopsOnlyInSend s (andThen r fun u => .next (k u)) := by
  obtain ⟨hrefused, hfault⟩ := h
  cases r with
  | next t => exact stopsOnlyInSend_next s _
  | fault e => exact ⟨nofun, hfault⟩
  | refused e => exact absurd rfl (hrefused e)

theorem stopsOnlyInSend_raise {s u : State} (x : Exceptional) (h : sendStop u = sendStop s) :
    StopsOnlyInSend s (raise x u) := by
  unfold raise
  split
  · exact stopsOnlyInSend_transmit _ h
  · exact stopsOnlyInSend_next s u

theorem stopsOnlyInSend_pushItem {s u : State} (i : Nat) (h : sendStop u = sendStop s) :
    StopsOnlyInSend s (pushItem i u) := by
  unfold pushItem
  split
  · exact stopsOnlyInSend_next s u
  · exact stopsOnlyInSend_transmit _ h

theorem stopsOnlyInSend_report (addr : Word16) (i : Instr) (s : State) : StopsOnlyInSend s (report addr i s) := by
  unfold report
  split
  · exact stopsOnlyInSend_transmit _ rfl
  · exact stopsOnlyInSend_transmit _ rfl

theorem stopsOnlyInSend_writeItem (cmd : WriteCmd) (addr : Word16) (data : List Byte) (s : State) :
    StopsOnlyInSend s (writeItem cmd addr data s) := by
  unfold writeItem
  split
  · exact stopsOnlyInSend_raise _ rfl
  · split
    · exact stopsOnlyInSend_raise _ rfl
    · split
      · exact stopsOnlyInSend_transmit _ rfl
      · exact stopsOnlyInSend_raise _ rfl

theorem sendStop_beginSweep (s : State) : sendStop (beginSweep s) = sendStop s := by
  rw [beginSweep_eq]
  rfl

theorem stopsOnlyInSend_scan {s u : State} (h : sendStop u = sendStop s) : StopsOnlyInSend s (scan u) := by
  have hbegin : sendStop (beginSweep u) = sendStop s := (sendStop_beginSweep u).trans h
  unfold scan
  split
  · exact stopsOnlyInSend_raise _ h
  · split
    · exact stopsOnlyInSend_andThen (advanceSweep _) (stopsOnlyInSend_pushItem _ hbegin)
    · exact stopsOnlyInSend_andThen endSweep (stopsOnlyInSend_raise _ hbegin)

theorem stopsOnlyInSend_execPoll (flag : Byte) (s : State) : StopsOnlyInSend s (execPoll flag s) := by
  unfold execPoll
  split
  · exact stopsOnlyInSend_scan rfl
  · split
    · exact stopsOnlyInSend_scan rfl
    · exact stopsOnlyInSend_raise _ rfl

theorem stopsOnlyInSend_execRead (addr : Word16) (s : State) : StopsOnlyInSend s (execRead addr s) := by
  unfold execRead
  split
  · exact stopsOnlyInSend_raise _ rfl
  · exact stopsOnlyInSend_pushItem _ rfl

theorem stopsOnlyInSend_execHello (s : State) : StopsOnlyInSend s (execHello s) := by
  unfold execHello
  split
  · exact stopsOnlyInSend_transmit _ rfl
  · exact stopsOnlyInSend_next s s

theorem stopsOnlyInSend_exec (i : Instr) (s : State) : StopsOnlyInSend s (exec i s) := by
  cases i with
  | poll flag => exact stopsOnlyInSend_execPoll flag s
  | read addr => exact stopsOnlyInSend_execRead addr s
  | wrb | wrw | wrd | wrc | wra => exact stopsOnlyInSend_writeItem _ _ _ s
  | pushb | pushw | pushd | pushc | pusha => exact stopsOnlyInSend_report _ _ s
  | ack => exact stopsOnlyInSend_transmit _ rfl
  | badcrc c => exact stopsOnlyInSend_raise (.crcMismatch c) rfl
  | nodata => exact stopsOnlyInSend_raise .noNewData rfl
  | badflag => exact stopsOnlyInSend_raise .badPollFlag rfl
  | noaddr => exact stopsOnlyInSend_raise .addressNotFound rfl
  | wrrej => exact stopsOnlyInSend_raise .writeRejected rfl
  | hello => exact stopsOnlyInSend_execHello s

/-- Settles O43: `stopsOnlyInSend_exec`, one case per meaning. -/
theorem instructionsStopOnlyInSend : Obligations.InstructionsStopOnlyInSend :=
  fun s i => stopsOnlyInSend_exec i s

/-- Over a line that returns every instruction answers a next state. -/
theorem exec_live {s : State} (i : Instr) (hlive : linkLive s) : ∃ t, exec i s = .next t := by
  obtain ⟨hrefused, hfault⟩ := stopsOnlyInSend_exec i s
  cases h : exec i s with
  | next t => exact ⟨t, rfl⟩
  | fault e =>
    have hstop := hfault e h
    rw [hlive] at hstop
    cases hstop
  | refused e => exact absurd h (hrefused e)

/-! ### The status frames -/

/-- Settles O34: each is a `transmit` or an outcome that is always enabled. -/
theorem ungatedStatusFramesAreSent : Obligations.UngatedStatusFramesAreSent := by
  intro s hlive
  obtain ⟨time, clk, htime, hack⟩ := transmit_live .ack hlive
  exact ⟨⟨_, hack, onlySends_afterSend _ clk htime⟩, raise_onlySends (x := .noNewData) hlive rfl,
    raise_onlySends (x := .addressNotFound) hlive rfl, raise_onlySends (x := .writeRejected) hlive rfl⟩

/-- Settles O35: `BADCRC` and `BADFLAG` are outcomes under their enables, `HELLO` a `transmit` under its own. -/
theorem gatedStatusFramesAreSentOnlyWhenEnabled : Obligations.GatedStatusFramesAreSentOnlyWhenEnabled := by
  intro s c hlive
  obtain ⟨time, clk, htime, hhello⟩ := transmit_live .hello hlive
  exact ⟨raise_onlySends (x := .crcMismatch c) hlive, raise_of_disabled (x := .crcMismatch c),
    raise_onlySends (x := .badPollFlag) hlive, raise_of_disabled (x := .badPollFlag),
    fun h => ⟨_, (if_pos h).trans hhello, onlySends_afterSend _ clk htime⟩, fun h => if_neg (by simp [h])⟩

end Sys2Proof.Proofs.Sending
end

section
/-! Resynchronisation (41_rx_framer.md sections 1 to 3): what the drain moves, which bytes the recognition loop drops,
and the poll steps over an empty buffer, over a frame with a wrong CRC, and over a frame that never fits. -/

namespace Sys2Proof.Proofs.Resync

open Sys2Proof.Machine Sys2Proof.Stmt

/-! ### The drain -/

/-- A byte is moved exactly when the drain counts one (rule R121). -/
theorem take_drainCount_eq_nil {s : State} : s.rxFifo.take (drainCount s) = [] ↔ ¬ 0 < drainCount s := by
  have hcount : drainCount s ≤ s.rxFifo.length := Nat.min_le_left _ _
  rw [← List.length_eq_zero_iff, List.length_take_of_le hcount, Nat.pos_iff_ne_zero, not_not]

/-- Settles O12: the drained bytes are the first `drainCount` of the queue. -/
theorem drainMovesTheOldestBytesThatFit : Obligations.DrainMovesTheOldestBytesThatFit := by
  intro s hbound
  refine ⟨s.rxFifo.take (drainCount s), ?_, ?_, ?_, drain_bound s hbound, ?_, ?_⟩
  · rw [drain_eq, List.take_append_drop]
  · rw [drain_eq]
  · exact List.length_take_of_le (Nat.min_le_left _ _)
  · rw [drain_eq]
    simp only [take_drainCount_eq_nil, ite_not]
  · rw [drain_eq]

/-- `s` with the whole queue moved into an empty buffer, and with `bs` of it left there. -/
def holding (bs : List Byte) (s : State) : State := { s with rxBuf := bs, rxFifo := [], lastRxTime := s.clock }

/-- A drain into an empty buffer that the whole queue fits in (rule R121, decision D7). -/
theorem drain_of_fits {s : State} (hbuf : s.rxBuf = []) (hfifo : s.rxFifo ≠ [])
    (hfits : s.rxFifo.length ≤ s.config.rxCap) : drain s = holding s.rxFifo s := by
  have hcount : drainCount s = s.rxFifo.length := by simp [drainCount, hbuf, hfits]
  have hmoved : 0 < drainCount s := hcount ▸ List.length_pos_iff.2 hfifo
  rw [drain_eq, if_pos hmoved, hcount, hbuf, List.take_length, List.drop_length, List.nil_append]
  rfl

/-- The bytes just drained are not stale (rule R122). -/
theorem staleCheck_holding (bs : List Byte) (s : State) : staleCheck (holding bs s) = holding bs s := by
  apply RxFramer.staleCheck_of_fresh
  show s.clock - s.clock ≤ s.config.staleMs
  rw [BitVec.sub_self]
  exact BitVec.le_def.mpr (Nat.zero_le _)

/-- A full buffer takes nothing from the queue. -/
theorem drain_of_full {s : State} (h : s.config.rxCap ≤ s.rxBuf.length) : drain s = s := by
  have hcount : drainCount s = 0 := by
    rw [drainCount]
    omega
  rw [drain_eq, hcount, List.take_zero, List.append_nil, List.drop_zero]
  rfl

/-! ### The bytes the loop drops -/

/-- A byte that is not the device address begins no frame (rule R124). -/
theorem decode_of_foreign {dev a : Byte} {bs : List Byte} (hlen : 3 ≤ bs.length) (ha : a ≠ dev) :
    decode dev (a :: bs) = .error .foreignAddress := by
  have hshort : ¬ (a :: bs).length < 4 := by simp; omega
  have hfirst : byteAt (a :: bs) 0 = a := rfl
  rw [decode, if_neg hshort, hfirst, if_pos ha]

/-- The loop drops a byte that begins no frame, and starts again at the top (rules R124, R132). -/
theorem recognise_of_dropped {dev a : Byte} {bs : List Byte}
    (h : decode dev (a :: bs) = .error .foreignAddress ∨ ∃ c, decode dev (a :: bs) = .error (.unknownCommand c)) :
    recognise dev (a :: bs) = recognise dev bs := by
  obtain hforeign | ⟨c, hunknown⟩ := h
  · rw [recognise, hforeign]
  · rw [recognise, hunknown]

/-- Settles O15: the first byte is foreign, or it is the address and its command byte is not recognised. -/
theorem badFrameStartDropsExactlyOneByte : Obligations.BadFrameStartDropsExactlyOneByte := by
  intro dev a c bs hlen hbad
  apply recognise_of_dropped
  by_cases ha : a = dev
  · subst ha
    have hunknown := hbad.resolve_left (not_not.2 rfl)
    exact .inr ⟨c, Codec.decode_of_hostCmd_none hlen (Codec.hostCmd_eq_none.2 hunknown)⟩
  · exact .inl (decode_of_foreign (by simp; omega) ha)

/-- Garbage without the device address is dropped byte by byte, as long as enough follows it for a decision. -/
theorem recognise_garbage {dev : Byte} {bs : List Byte} (hlen : 4 ≤ bs.length) :
    ∀ g : List Byte, (∀ b ∈ g, b ≠ dev) → recognise dev (g ++ bs) = recognise dev bs
  | [], _ => rfl
  | a :: g, hg => by
    have ha : a ≠ dev := hg a (by simp)
    have hrest : ∀ b ∈ g, b ≠ dev := fun b hb => hg b (by simp [hb])
    have hlong : 3 ≤ (g ++ bs).length := by rw [List.length_append]; omega
    calc recognise dev (a :: (g ++ bs)) = recognise dev (g ++ bs) :=
          recognise_of_dropped (.inl (decode_of_foreign hlong ha))
      _ = recognise dev bs := recognise_garbage hlen g hrest

/-! ### A poll step over an empty buffer -/

/-- With an empty buffer and a queue that fits, the poll step settles what the loop makes of the queue. -/
theorem pollStep_of_recognise_fifo {s : State} {r : Recognition} {bs : List Byte} (hbuf : s.rxBuf = [])
    (hfifo : s.rxFifo ≠ []) (hfits : s.rxFifo.length ≤ s.config.rxCap)
    (h : recognise s.config.devAddr s.rxFifo = (r, bs)) :
    pollStep s = settle r (holding bs s) := by
  have hstale : staleCheck (drain s) = holding s.rxFifo s := by
    rw [drain_of_fits hbuf hfifo hfits, staleCheck_holding]
  have hloop : recognise (holding s.rxFifo s).config.devAddr (holding s.rxFifo s).rxBuf = (r, bs) := h
  simp only [pollStep, recognised, received, hstale, hloop]
  rfl

/-- Settles O16: the loop drops the garbage and ends with the frame, which O6 reads. -/
theorem garbageThenFrameRunsTheFrame : Obligations.GarbageThenFrameRunsTheFrame := by
  intro s g rest i hready hbuf hdir hwf hg hfifo hfits
  have hlen : 4 ≤ (encode s.config.devAddr i ++ rest).length := by
    have := Codec.four_le_length_encode s.config.devAddr i
    rw [List.length_append]
    omega
  have hne : s.rxFifo ≠ [] := by
    rintro hnil
    rw [hnil, List.append_assoc] at hfifo
    rw [(List.append_eq_nil_iff.1 hfifo.symm).2] at hlen
    simp at hlen
  have hloop : recognise (begun s).config.devAddr (begun s).rxFifo =
      (.frame i, encode s.config.devAddr i ++ rest) := by
    show recognise s.config.devAddr s.rxFifo = _
    rw [hfifo, List.append_assoc, recognise_garbage hlen g hg]
    exact RxFramer.recognise_of_ok (Codec.encodedCommandDecodesToItself _ i rest hdir hwf)
  rw [RxFramer.step_of_ready_poll hready]
  exact pollStep_of_recognise_fifo (s := begun s) hbuf hne hfits hloop

/-! ### A wrong CRC -/

/-- The frame up to its CRC. -/
theorem dropLast_encode (dev : Byte) (i : Instr) : (encode dev i).dropLast = dev :: i.code :: i.body :=
  FrameCrc.dropLast_withCrc _

/-- With another last byte the frame is as long as before: the length field stands before the CRC (rule R86). -/
theorem frameLen_replace_crc {cmd : HostCmd} {dev : Byte} {i : Instr} (k : Byte)
    (hlen : frameLen cmd (frameDataLen (encode dev i)) = (encode dev i).length) :
    frameLen cmd (frameDataLen (dev :: i.code :: (i.body ++ [k]))) = (i.body ++ [k]).length + 2 := by
  rw [Codec.length_encode] at hlen
  have hsame : cmd = .wra → frameDataLen (dev :: i.code :: (i.body ++ [k])) = frameDataLen (encode dev i) := by
    rintro rfl
    have hbody : 6 ≤ (dev :: i.code :: i.body).length := by
      have := hlen ▸ Codec.seven_le_frameLen_wra _
      simp
      omega
    calc frameDataLen (dev :: i.code :: i.body ++ [k]) = frameDataLen (dev :: i.code :: i.body) :=
          Codec.frameDataLen_append hbody
      _ = frameDataLen (encode dev i) := (Codec.frameDataLen_append hbody).symm
  rw [RxFramer.frameLen_congr hsame, hlen, List.length_append, List.length_singleton]

/-- A command's frame with a wrong last byte fails the CRC check, with the right byte in the report (rules R129,
R130, decision D13). -/
theorem decode_wrong_crc {dev k : Byte} {i : Instr} (rest : List Byte) (hdir : i.fromHost = true)
    (hwf : i.wellFormed = true) (hk : k ≠ crc8 (encode dev i).dropLast) :
    decode dev ((encode dev i).dropLast ++ k :: rest) = .error (.crcMismatch (crc8 (encode dev i).dropLast)) := by
  obtain ⟨cmd, hcmd, hlen⟩ := RxFramer.exists_hostCmd_of_fromHost hdir hwf dev
  rw [dropLast_encode] at hk ⊢
  have htail : 2 ≤ (i.body ++ [k]).length := by
    have := List.length_pos_iff.2 (Codec.body_ne_nil i)
    simp
    omega
  have hlast : (i.body ++ [k]).length + 2 = (dev :: i.code :: i.body).length + 1 := by simp
  calc decode dev (dev :: i.code :: i.body ++ k :: rest)
      = decode dev (dev :: i.code :: (i.body ++ [k]) ++ rest) := by simp
    _ = checkedFrame (hostInstr cmd) ((dev :: i.code :: i.body).length + 1)
          (dev :: i.code :: i.body ++ [k] ++ rest) := by
      rw [Codec.decode_eq_checkedFrame rest htail hcmd (frameLen_replace_crc k hlen), hlast]
      rfl
    _ = .error (.crcMismatch (crc8 (dev :: i.code :: i.body))) := by
      rw [Codec.checkedFrame_append_singleton, if_neg hk.symm]

/-- A CRC failure ends the loop at once (rule R130). -/
theorem recognise_of_crcMismatch {dev c : Byte} {bs : List Byte} (h : decode dev bs = .error (.crcMismatch c)) :
    recognise dev bs = (.badCrc c, bs) := by
  cases bs with
  | nil => cases h
  | cons b bs => rw [recognise, h]

/-- Settles O17: the loop ends with the CRC failure, whose report is sent if it is enabled, and the buffer is cleared.
-/
theorem wrongCrcRunsNothingAndClearsTheBuffer : Obligations.WrongCrcRunsNothingAndClearsTheBuffer := by
  intro s i k rest hready hbuf hdir hwf hlive hk hfifo hfits
  have hne : s.rxFifo ≠ [] := by simp [hfifo]
  have hloop : recognise (begun s).config.devAddr (begun s).rxFifo =
      (.badCrc (crc8 (encode s.config.devAddr i).dropLast), s.rxFifo) := by
    refine recognise_of_crcMismatch ?_
    show decode s.config.devAddr s.rxFifo = _
    rw [hfifo]
    exact decode_wrong_crc rest hdir hwf hk
  rw [drain_of_fits hbuf hne hfits] at hlive ⊢
  rw [RxFramer.step_of_ready_poll hready, pollStep_of_recognise_fifo (s := begun s) hbuf hne hfits hloop]
  by_cases henabled : s.config.enCrcResp = true
  · obtain ⟨time, clk, htime, hraise⟩ := raise_live
      (x := .crcMismatch (crc8 (encode s.config.devAddr i).dropLast))
      (s := holding s.rxFifo (begun s)) henabled hlive
    refine ⟨_, congrArg (andThen · clearBuffer) hraise, rfl, rfl, rfl, fun _ => rfl, ⟨rfl, rfl, rfl⟩, ?_⟩
    rw [if_pos henabled]
    exact Sending.sends_afterSend clk htime rfl (List.append_nil _).symm rfl rfl
  · have hraise := Sending.raise_of_disabled (x := .crcMismatch (crc8 (encode s.config.devAddr i).dropLast))
      (s := holding s.rxFifo (begun s))
      (Bool.eq_false_iff.2 henabled)
    refine ⟨_, congrArg (andThen · clearBuffer) hraise, rfl, rfl, rfl, fun _ => rfl, ⟨rfl, rfl, rfl⟩, ?_⟩
    rw [if_neg henabled]
    exact ⟨rfl, rfl⟩

/-! ### A frame that never fits -/

/-- A 0xDE frame longer than the bytes there are makes the decoder wait (rules R127, R128). -/
theorem decode_of_oversized {dev : Byte} {rest : List Byte} (hlen : 4 ≤ rest.length)
    (hover : rest.length + 2 < 7 + (le16 (byteAt rest 2) (byteAt rest 3)).toNat) :
    decode dev (dev :: 0xDE :: rest) = .error .incomplete := by
  refine Codec.decode_of_neededLen_none (cmd := .wra) (by omega) rfl ?_
  have hfield : ¬ (HostCmd.wra = .wra ∧ (dev :: 0xDE :: rest).length < 6) := by simp; omega
  rw [neededLen, if_neg hfield, if_pos]
  exact hover

/-- A buffer the loop waits on is left as the stale check leaves it. -/
theorem pollStep_of_full_waiting {s : State} (hfull : s.config.rxCap ≤ s.rxBuf.length)
    (hwait : decode s.config.devAddr s.rxBuf = .error .incomplete) :
    pollStep s = .next (staleCheck s) := by
  have hloop : recognise s.config.devAddr (staleCheck s).rxBuf = (.wait, (staleCheck s).rxBuf) := by
    rw [staleCheck_eq]
    split
    · rfl
    · exact RxFramer.recognise_of_waiting (.inr hwait)
  have hdrain : drain s = s := drain_of_full hfull
  have := RxFramer.pollStep_of_recognise (s := s) (r := .wait) (by rw [hdrain]; exact hloop)
  rw [hdrain] at this
  exact this

/-- Settles O18: nothing is drained, the decoder waits, and only the stale check can discard the buffer. -/
theorem oversizedArrayFrameOnlyGoesStale : Obligations.OversizedArrayFrameOnlyGoesStale := by
  intro s rest hready hfull hbuf hlen hover
  have hne : s.rxBuf ≠ [] := by simp [hbuf]
  have hrest : s.config.rxCap = rest.length + 2 := by rw [← hfull, hbuf]; rfl
  have hwait : decode s.config.devAddr s.rxBuf = .error .incomplete := by
    rw [hbuf]
    exact decode_of_oversized hlen (by omega)
  refine ⟨staleCheck (begun s), ?_, ?_⟩
  · rw [RxFramer.step_of_ready_poll hready]
    exact pollStep_of_full_waiting (s := begun s) hfull.ge hwait
  · rw [staleCheck_eq]
    refine ⟨rfl, rfl, fun _ => rfl, rfl, rfl, ?_⟩
    show (if s.rxBuf ≠ [] ∧ s.config.staleMs < s.clock - s.lastRxTime then [] else s.rxBuf) = _
    simp only [hne, ne_eq, not_false_eq_true, true_and]

end Sys2Proof.Proofs.Resync
end

section
/-! What one instruction can do (60_exceptions.md section 1, 10_state.md sections 3 and 8), said once: it does nothing,
or it sends one frame, and before the frame it may clear a flag, mark every item, or store a value. The claims over
every instruction are read off this list. -/

namespace Sys2Proof.Proofs.Effects

open Sys2Proof.Machine Sys2Proof.Stmt

/-! ### What fits an item -/

/-- A value that fits is as long as the item's kind says, or within the capacity of an Array (rules R167, R217). -/
theorem fits_of_kind {it : Item} {v : List Byte} {n : Nat} (hkind : klen it.kind = some n) (hlen : v.length = n) :
    Fits it v := by
  rw [Fits, if_neg (PushLayout.ne_array_of_klen hkind), hkind, hlen]

theorem klen_of_fourByte {k : Kind} (h : fourByte k = true) : klen k = some 4 := by
  cases k with
  | dword | float | hsb | rgb | rgbw => rfl
  | _ => cases h

/-- Every write command is an `ExecWrite` whose check is `Fits` (rules R160 to R165). -/
theorem exists_writeItem_of_writeOf {ins : Instr} {addr : Word16} {data : List Byte} (h : WriteOf ins addr data) :
    ∃ cmd, (∀ s, exec ins s = writeItem cmd addr data s) ∧
      ∀ it, storeFits cmd data it = true → Fits it data := by
  obtain ⟨d0, rfl, rfl⟩ | ⟨d0, d1, rfl, rfl⟩ | ⟨d0, d1, d2, d3, rfl, rfl⟩ | ⟨d0, d1, d2, d3, rfl, rfl⟩ | rfl := h
  · refine ⟨.wrb, fun _ => rfl, fun it hfits => fits_of_kind (n := 1) ?_ rfl⟩
    rw [WriteCommands.storeFits_wrb.1 hfits]
    rfl
  · refine ⟨.wrw, fun _ => rfl, fun it hfits => fits_of_kind (n := 2) ?_ rfl⟩
    rw [WriteCommands.storeFits_wrw.1 hfits]
    rfl
  · exact ⟨.wrd, fun _ => rfl, fun it hfits =>
      fits_of_kind (klen_of_fourByte (WriteCommands.storeFits_wrd.1 hfits)) rfl⟩
  · exact ⟨.wrc, fun _ => rfl, fun it hfits =>
      fits_of_kind (klen_of_fourByte (WriteCommands.storeFits_wrc.1 hfits)) rfl⟩
  · refine ⟨.wra, fun _ => rfl, fun it hfits => ?_⟩
    obtain ⟨hkind, hlen⟩ := WriteCommands.storeFits_wra.1 hfits
    rwa [Fits, if_pos hkind]

/-! ### The list of effects -/

/-- `s` with the three registers of the scheduler at these values. -/
def withScheduler (cursor : Nat) (active : Bool) (start : Nat) (s : State) : State :=
  { s with scanCursor := cursor, sweepInProgress := active, sweepStart := start }

/-- The items an instruction scans: those of `s`, all marked dirty first if it is the forced poll (rule R142). -/
def Scanned (i : Instr) (s : State) (items : List Item) : Prop :=
  items = s.items ∨ i = Instr.fpoll ∧ items = s.items.map fun it => { it with dirty := true }

/-- Legal registers, for a table of `n` items, that leave an open sweep away from its start (rules R30, R35). -/
def LegalScheduler (n cursor : Nat) (active : Bool) (start : Nat) : Prop :=
  cursor < max n 1 ∧ start < max n 1 ∧ (active = true → cursor ≠ start)

/-- What running `i` in `s` can end in. -/
inductive Effect (i : Instr) (s : State) : State → Prop
  /-- A response that is not enabled. -/
  | silent : Effect i s s
  /-- A status frame. -/
  | answered (f : Frame) (time clk : Word32) (htime : txTimeOk s time = true) : Effect i s (afterSend f time clk s)
  /-- A push frame, outside the scheduler. -/
  | reported (k : Nat) (f : Frame) (time clk : Word32) (htime : txTimeOk s time = true) :
    Effect i s (afterSend f time clk (setDirty k false s))
  /-- A write that is accepted. -/
  | stored (addr : Word16) (data : List Byte) (k : Nat) (it : Item) (f : Frame) (time clk : Word32)
    (hwrite : WriteOf i addr data) (hitem : s.items[k]? = some it) (hfits : Fits it data)
    (htime : txTimeOk s time = true) :
    Effect i s (afterSend f time clk ((storeValue k data s).emit (.onWrite k)))
  /-- A scan that pushes an item. -/
  | pushed (items : List Item) (k : Nat) (f : Frame) (time clk : Word32) (cursor : Nat) (active : Bool) (start : Nat)
    (hscanned : Scanned i s items)
    (hlegal : schedulerOk s → LegalScheduler s.items.length cursor active start)
    (htime : txTimeOk s time = true) :
    Effect i s (withScheduler cursor active start (afterSend f time clk (setDirty k false (s.setItems items))))
  /-- A scan that finds nothing. -/
  | swept (items : List Item) (f : Frame) (time clk : Word32) (cursor : Nat) (start : Nat)
    (hscanned : Scanned i s items)
    (hlegal : schedulerOk s → LegalScheduler s.items.length cursor false start)
    (htime : txTimeOk s time = true) :
    Effect i s (withScheduler cursor false start (afterSend f time clk (s.setItems items)))

/-! ### Every instruction has one of the effects -/

theorem effect_of_raise {i : Instr} {x : Exceptional} {s t : State} (h : raise x s = .next t) : Effect i s t := by
  obtain ⟨-, rfl⟩ | ⟨-, time, clk, htime, rfl⟩ := raise_eq_next h
  · exact .silent
  · exact .answered _ time clk htime

theorem effect_of_transmit {i j : Instr} {s t : State} (h : transmit j s = .next t) : Effect i s t := by
  obtain ⟨time, clk, htime, rfl⟩ := transmit_eq_next h
  exact .answered _ time clk htime

theorem effect_of_pushItem {i : Instr} {k : Nat} {s t : State} (h : pushItem k s = .next t) : Effect i s t := by
  obtain ⟨-, rfl⟩ | ⟨it, time, clk, -, htime, rfl⟩ := pushItem_eq_next h
  · exact .silent
  · exact .reported k _ time clk htime

theorem effect_of_report {i j : Instr} {addr : Word16} {s t : State} (h : report addr j s = .next t) :
    Effect i s t := by
  obtain ⟨time, clk, htime, rfl⟩ := report_eq_next h
  cases lookup addr s.items with
  | none => exact .answered _ time clk htime
  | some k => exact .reported k _ time clk htime

theorem effect_of_writeOf {i : Instr} {addr : Word16} {data : List Byte} {s t : State} (hwrite : WriteOf i addr data)
    (h : exec i s = .next t) : Effect i s t := by
  obtain ⟨cmd, hexec, hcheck⟩ := exists_writeItem_of_writeOf hwrite
  rw [hexec] at h
  obtain ⟨-, hraise⟩ | ⟨k, it, -, -, -, hraise⟩ | ⟨k, it, -, hitem, hfits, hack⟩ := writeItem_eq_next h
  · exact effect_of_raise hraise
  · exact effect_of_raise hraise
  · obtain ⟨time, clk, htime, rfl⟩ := transmit_eq_next hack
    exact .stored addr data k it _ time clk hwrite hitem (hcheck it hfits) htime

/-! ### The scan -/

/-- The cursor after the push of item `j` in a sweep from `start` over `n` items (rules R145, R146). -/
def cursorAfter (n start j : Nat) : Nat :=
  if (j + 1) % n = start then (start + 1) % n else (j + 1) % n

/-- The sweep goes on after the push of item `j` unless the next index is its start (rules R145, R146). -/
def openAfter (n start j : Nat) : Bool := !decide ((j + 1) % n = start)

theorem beginSweep_eq_withScheduler (s : State) :
    beginSweep s = withScheduler s.scanCursor true (sweepFrom s) s := beginSweep_eq s

/-- The scheduler's registers after a push. -/
theorem advanceSweep_withScheduler (j : Nat) (s : State) (cursor start : Nat) :
    advanceSweep j (withScheduler cursor true start s) =
      withScheduler (cursorAfter s.items.length start j) (openAfter s.items.length start j) start s := by
  rw [advanceSweep_eq]
  unfold withScheduler cursorAfter openAfter
  by_cases h : (j + 1) % s.items.length = start
  · simp [h]
  · simp [h]

/-- What the scan does, with the registers it leaves (rules R143 to R148). -/
theorem scan_cases {s t : State} (h : scan s = .next t) :
    (s.items = [] ∧ raise .noNewData s = .next t) ∨
    (∃ j it time clk, scanTarget (beginSweep s) = some j ∧ s.items[j]? = some it ∧ txTimeOk s time = true ∧
      t = withScheduler (cursorAfter s.items.length (sweepFrom s) j) (openAfter s.items.length (sweepFrom s) j)
        (sweepFrom s) (afterSend (encode s.config.devAddr (pushFrame j it s.mem)) time clk (setDirty j false s))) ∨
    (s.items ≠ [] ∧ scanTarget (beginSweep s) = none ∧ ∃ time clk, txTimeOk s time = true ∧
      t = withScheduler ((sweepFrom s + 1) % s.items.length) false (sweepFrom s)
        (afterSend (statusFrame s 0xE2 0x00) time clk s)) := by
  obtain ⟨hnil, hraise⟩ | ⟨hne, j, u, htarget, hpush, rfl⟩ | ⟨hne, u, htarget, hraise, rfl⟩ := scan_eq_next h
  · exact .inl ⟨hnil, hraise⟩
  · rw [beginSweep_eq_withScheduler] at hpush
    have hlt : j < s.items.length := by
      have := dirtyAt_lt (scanFrom_dirty htarget)
      rwa [beginSweep_eq_withScheduler] at this
    obtain ⟨hnone, -⟩ | ⟨it, time, clk, hitem, htime, rfl⟩ := pushItem_eq_next hpush
    · exact absurd hlt (List.getElem?_eq_none_iff.1 hnone).not_gt
    · refine .inr (.inl ⟨j, it, time, clk, htarget, hitem, htime, ?_⟩)
      have hlength : (setDirty j false s).items.length = s.items.length := List.length_modify ..
      rw [← hlength]
      exact advanceSweep_withScheduler j
        (afterSend (encode s.config.devAddr (pushFrame j it s.mem)) time clk (setDirty j false s)) _ _
  · rw [beginSweep_eq_withScheduler] at hraise
    obtain ⟨hdisabled, -⟩ | ⟨-, time, clk, htime, rfl⟩ := raise_eq_next hraise
    · cases hdisabled
    · exact .inr (.inr ⟨hne, htarget, time, clk, htime, rfl⟩)

theorem sweepFrom_lt {s : State} (hsched : schedulerOk s) : sweepFrom s < max s.items.length 1 := by
  obtain ⟨hcursor, hstart, -⟩ := hsched
  unfold sweepFrom
  split
  · exact hstart
  · exact hcursor

/-- The registers a push leaves are legal: an open sweep is not back at its start. -/
theorem legalScheduler_push {n start : Nat} (j : Nat) (hn : 0 < n) (hstart : start < max n 1) :
    LegalScheduler n (cursorAfter n start j) (openAfter n start j) start := by
  have hmod : ∀ m, m % n < max n 1 := fun m => (Nat.mod_lt m hn).trans_le (Nat.le_max_left _ _)
  unfold LegalScheduler cursorAfter openAfter
  by_cases h : (j + 1) % n = start
  · simp [h, hmod, hstart]
  · simp [h, hmod, hstart]

/-- So are the registers at the end of a sweep. -/
theorem legalScheduler_end {n start : Nat} (hn : 0 < n) (hstart : start < max n 1) :
    LegalScheduler n ((start + 1) % n) false start :=
  ⟨(Nat.mod_lt _ hn).trans_le (Nat.le_max_left _ _), hstart, nofun⟩

theorem schedulerOk_setItems {s : State} {items : List Item} (h : items.length = s.items.length)
    (hsched : schedulerOk s) : schedulerOk (s.setItems items) := by
  show _ < max items.length 1 ∧ _ < max items.length 1 ∧ _
  rw [h]
  exact hsched

theorem effect_of_scan {i : Instr} {items : List Item} {s t : State} (hscanned : Scanned i s items)
    (h : scan (s.setItems items) = .next t) : Effect i s t := by
  have hlength : items.length = s.items.length := by
    obtain rfl | ⟨-, rfl⟩ := hscanned
    · rfl
    · exact List.length_map _
  have hstart : schedulerOk s → sweepFrom (s.setItems items) < max s.items.length 1 := fun hsched =>
    hlength ▸ sweepFrom_lt (schedulerOk_setItems hlength hsched)
  obtain ⟨hnil, hraise⟩ | ⟨j, it, time, clk, -, hitem, htime, rfl⟩ | ⟨hne, -, time, clk, htime, rfl⟩ := scan_cases h
  · -- marking an empty table changes nothing
    have hsame : s.setItems items = s := by
      have hitems : items = s.items := by
        rw [show items = [] from hnil, List.length_nil] at hlength
        rw [show items = [] from hnil, List.eq_nil_of_length_eq_zero hlength.symm]
      rw [hitems]
      rfl
    rw [hsame] at hraise
    exact effect_of_raise hraise
  · have hn : 0 < s.items.length := hlength ▸ (List.getElem?_eq_some_iff.1 hitem).1.trans_le' (Nat.zero_le _)
    refine .pushed items j _ time clk _ _ _ hscanned (fun hsched => ?_) htime
    rw [State.setItems_items, hlength]
    exact legalScheduler_push j hn (hstart hsched)
  · have hn : 0 < s.items.length := hlength ▸ List.length_pos_iff.2 hne
    refine .swept items _ time clk _ _ hscanned (fun hsched => ?_) htime
    rw [State.setItems_items, hlength]
    exact legalScheduler_end hn (hstart hsched)

theorem effect_of_execPoll {flag : Byte} {s t : State} (h : execPoll flag s = .next t) :
    Effect (.poll flag) s t := by
  unfold execPoll at h
  split at h
  next hforced => exact effect_of_scan (.inr ⟨congrArg Instr.poll hforced, rfl⟩) h
  next =>
    split at h
    · exact effect_of_scan (items := s.items) (.inl rfl) h
    · exact effect_of_raise h

theorem effect_of_execRead {addr : Word16} {s t : State} (h : execRead addr s = .next t) :
    Effect (.read addr) s t := by
  unfold execRead at h
  split at h
  · exact effect_of_raise h
  · exact effect_of_pushItem h

theorem effect_of_execHello {s t : State} (h : execHello s = .next t) : Effect .hello s t := by
  unfold execHello at h
  split at h
  · exact effect_of_transmit h
  · cases h
    exact .silent

/-- Every instruction has one of the effects. -/
theorem effect_of_exec {i : Instr} {s t : State} (h : exec i s = .next t) : Effect i s t := by
  cases i with
  | poll flag => exact effect_of_execPoll h
  | read addr => exact effect_of_execRead h
  | wrb addr d0 => exact effect_of_writeOf (.inl ⟨d0, rfl, rfl⟩) h
  | wrw addr d0 d1 => exact effect_of_writeOf (.inr (.inl ⟨d0, d1, rfl, rfl⟩)) h
  | wrd addr d0 d1 d2 d3 => exact effect_of_writeOf (.inr (.inr (.inl ⟨d0, d1, d2, d3, rfl, rfl⟩))) h
  | wrc addr d0 d1 d2 d3 => exact effect_of_writeOf (.inr (.inr (.inr (.inl ⟨d0, d1, d2, d3, rfl, rfl⟩)))) h
  | wra addr data => exact effect_of_writeOf (.inr (.inr (.inr (.inr rfl)))) h
  | pushb | pushw | pushd | pushc | pusha => exact effect_of_report h
  | ack => exact effect_of_transmit h
  | badcrc c => exact effect_of_raise (x := .crcMismatch c) h
  | nodata => exact effect_of_raise (x := .noNewData) h
  | badflag => exact effect_of_raise (x := .badPollFlag) h
  | noaddr => exact effect_of_raise (x := .addressNotFound) h
  | wrrej => exact effect_of_raise (x := .writeRejected) h
  | hello => exact effect_of_execHello h

/-! ### What the effects have in common -/

theorem Effect.sameRest {i : Instr} {s t : State} (h : Effect i s t) : SameRest s t := by
  cases h <;> exact ⟨rfl, rfl, rfl, rfl, rfl, rfl, rfl⟩

/-- `t` has the configuration and the time stamp of `s`, and its trace has gained frames at allowed times only. -/
def Gains (s t : State) : Prop :=
  t.config = s.config ∧ t.lastRxTime = s.lastRxTime ∧
    ∃ gained, t.trace = s.trace ++ gained ∧ ∀ f time, .tx f time ∈ gained → txTimeOk s time = true

theorem Gains.refl (s : State) : Gains s s := ⟨rfl, rfl, [], (List.append_nil _).symm, nofun⟩

/-- What a time is allowed by is the configuration and the time stamp. -/
theorem txTimeOk_congr {s u : State} (time : Word32) (hconfig : u.config = s.config)
    (hstamp : u.lastRxTime = s.lastRxTime) : txTimeOk u time = txTimeOk s time := by
  rw [txTimeOk, hconfig, hstamp]
  rfl

theorem Gains.trans {s u t : State} (h1 : Gains s u) (h2 : Gains u t) : Gains s t := by
  obtain ⟨hconfig, hstamp, g1, ht1, hok1⟩ := h1
  obtain ⟨hconfig', hstamp', g2, ht2, hok2⟩ := h2
  refine ⟨hconfig'.trans hconfig, hstamp'.trans hstamp, g1 ++ g2, by rw [ht2, ht1, List.append_assoc], ?_⟩
  intro f time hmem
  obtain hmem | hmem := List.mem_append.1 hmem
  · exact hok1 f time hmem
  · exact txTimeOk_congr time hconfig hstamp ▸ hok2 f time hmem

/-- The one time in the events of a `Send`. -/
theorem eq_of_tx_mem_linkEvents {config : Config} {f f' : Frame} {time time' : Word32}
    (h : TraceEvent.tx f' time' ∈ linkEvents config f time) : time' = time := by
  unfold linkEvents at h
  split at h
  · simp at h
    exact h.2
  · simp at h
    exact h.2

theorem gains_afterSend (f : Frame) {time : Word32} (clk : Word32) {s : State} (htime : txTimeOk s time = true) :
    Gains s (afterSend f time clk s) :=
  ⟨rfl, rfl, _, afterSend_trace f time clk s, fun _ _ hmem => eq_of_tx_mem_linkEvents hmem ▸ htime⟩

theorem gains_emit_onWrite (k : Nat) (s : State) : Gains s (s.emit (.onWrite k)) :=
  ⟨rfl, rfl, [.onWrite k], rfl, fun f time hmem => by simp at hmem⟩

theorem Effect.gains {i : Instr} {s t : State} (h : Effect i s t) : Gains s t := by
  cases h with
  | silent => exact .refl s
  | answered f time clk htime => exact gains_afterSend f clk htime
  | reported k f time clk htime => exact gains_afterSend (s := setDirty k false s) f clk htime
  | stored addr data k it f time clk hwrite hitem hfits htime =>
    exact (gains_emit_onWrite k (storeValue k data s)).trans (gains_afterSend f clk htime)
  | pushed items k f time clk cursor active start hscanned hlegal htime =>
    exact gains_afterSend (s := setDirty k false (s.setItems items)) f clk htime
  | swept items f time clk cursor start hscanned hlegal htime =>
    exact gains_afterSend (s := s.setItems items) f clk htime

/-- At most one frame is sent. -/
theorem Effect.frames {i : Instr} {s t : State} (h : Effect i s t) :
    ∃ sent, framesOf t.trace = framesOf s.trace ++ sent ∧ sent.length ≤ 1 := by
  cases h with
  | silent => exact ⟨[], (List.append_nil _).symm, Nat.zero_le 1⟩
  | answered f time clk => exact ⟨[f], WriteRead.framesOf_afterSend f time clk s, le_rfl⟩
  | reported k f time clk => exact ⟨[f], WriteRead.framesOf_afterSend f time clk _, le_rfl⟩
  | stored addr data k it f time clk =>
    refine ⟨[f], ?_, le_rfl⟩
    rw [WriteRead.framesOf_afterSend, WriteRead.framesOf_emit_onWrite]
    rfl
  | pushed items k f time clk => exact ⟨[f], WriteRead.framesOf_afterSend f time clk _, le_rfl⟩
  | swept items f time clk => exact ⟨[f], WriteRead.framesOf_afterSend f time clk _, le_rfl⟩

/-! ### Items and payload bytes -/

/-- An item without its flag. -/
def cleaned (it : Item) : Item := { it with dirty := false }

/-- Nothing of the table but flags differs. -/
def FlagsOnly (s t : State) : Prop := t.mem = s.mem ∧ t.items.map cleaned = s.items.map cleaned

/-- But for flags, `t` has the table of `s` after the store of `v` in item `k`, whose kind and capacity `v` fits. -/
def Stores (k : Nat) (v : List Byte) (s t : State) : Prop :=
  (∃ it, s.items[k]? = some it ∧ Fits it v) ∧ t.mem = (storeValue k v s).mem ∧
    t.items.map cleaned = (storeValue k v s).items.map cleaned

/-- A change of one item that `g` does not see is not seen in the list. -/
theorem map_modify_of_comp {β : Type} {f : Item → Item} {g : Item → β} (h : ∀ it, g (f it) = g it)
    (items : List Item) (k : Nat) : (items.modify k f).map g = items.map g := by
  apply List.ext_getElem?
  intro j
  by_cases hkj : k = j
  · subst hkj
    simp [h, Function.comp_def]
  · simp [List.getElem?_modify_ne, hkj]

theorem map_cleaned_setDirty (k : Nat) (b : Bool) (s : State) :
    (setDirty k b s).items.map cleaned = s.items.map cleaned :=
  map_modify_of_comp (f := fun it => { it with dirty := b }) (fun _ => rfl) s.items k

theorem map_cleaned_scanned {i : Instr} {s : State} {items : List Item} (h : Scanned i s items) :
    items.map cleaned = s.items.map cleaned := by
  obtain rfl | ⟨-, rfl⟩ := h
  · rfl
  · rw [List.map_map]
    rfl

/-- What does not depend on the flags is the same for tables that differ in flags only. -/
theorem map_eq_of_map_cleaned {β : Type} {items items' : List Item} {g : Item → β}
    (hg : ∀ it, g (cleaned it) = g it) (h : items'.map cleaned = items.map cleaned) :
    items'.map g = items.map g := by
  have hcomp : g ∘ cleaned = g := funext hg
  have := congrArg (List.map g) h
  rwa [List.map_map, List.map_map, hcomp] at this

/-- An instruction changes flags only, unless it is a write command that stores its data. -/
theorem Effect.flagsOnly_or_stores {i : Instr} {s t : State} (h : Effect i s t) :
    FlagsOnly s t ∨ ∃ addr data k, WriteOf i addr data ∧ Stores k data s t := by
  cases h with
  | silent => exact .inl ⟨rfl, rfl⟩
  | answered => exact .inl ⟨rfl, rfl⟩
  | reported k => exact .inl ⟨rfl, map_cleaned_setDirty k false s⟩
  | stored addr data k it f time clk hwrite hitem hfits =>
    exact .inr ⟨addr, data, k, hwrite, ⟨it, hitem, hfits⟩, rfl, rfl⟩
  | pushed items k f time clk cursor active start hscanned =>
    exact .inl ⟨rfl, (map_cleaned_setDirty k false (s.setItems items)).trans (map_cleaned_scanned hscanned)⟩
  | swept items f time clk cursor start hscanned => exact .inl ⟨rfl, map_cleaned_scanned hscanned⟩

/-- Settles O55: only a store, which is the effect of a write alone, touches lengths and bytes. -/
theorem onlyWritesChangeValues : Obligations.OnlyWritesChangeValues := by
  intro s t i h
  have heffect := effect_of_exec h
  refine ⟨heffect.sameRest, fun hwrite => ?_⟩
  obtain ⟨hmem, hitems⟩ | ⟨addr, data, k, hw, -⟩ := heffect.flagsOnly_or_stores
  · exact ⟨fun a => by rw [hmem], map_eq_of_map_cleaned (fun _ => rfl) hitems⟩
  · exact absurd hw (hwrite addr data)

/-- Clearing a flag sets none. -/
theorem dirtyAt_of_cleared {items : List Item} {k j : Nat}
    (h : dirtyAt (items.modify k fun it => { it with dirty := false }) j = true) : dirtyAt items j = true := by
  rw [dirtyAt_setDirty] at h
  split at h
  · cases h
  · exact h

/-- Settles O54: of the effects only the scan of the forced poll marks items, a store keeps every flag, and the others
clear one at most. -/
theorem onlyTheForcedPollSetsDirtyFromTheWire : Obligations.OnlyTheForcedPollSetsDirtyFromTheWire := by
  intro s t i j hi h hdirty
  have hscan : ∀ items, Scanned i s items → items = s.items := fun _ hscanned =>
    hscanned.resolve_right fun hforced => hi hforced.1
  cases effect_of_exec h with
  | silent => exact hdirty
  | answered => exact hdirty
  | reported k => exact dirtyAt_of_cleared hdirty
  | stored addr data k => exact dirtyAt_setLen s.items k j data.length ▸ hdirty
  | pushed items k f time clk cursor active start hscanned =>
    obtain rfl := hscan items hscanned
    exact dirtyAt_of_cleared hdirty
  | swept items f time clk cursor start hscanned =>
    obtain rfl := hscan items hscanned
    exact hdirty

/-- Settles O32: a write command is an `ExecWrite`, which answers or stores; a store keeps every flag. -/
theorem wireWritesKeepEveryDirtyFlag : Obligations.WireWritesKeepEveryDirtyFlag := by
  intro s t addr ins data hwrite h j
  obtain ⟨cmd, hexec, -⟩ := exists_writeItem_of_writeOf hwrite
  have hraise : ∀ x, raise x s = .next t → t.items = s.items := by
    intro x hx
    obtain ⟨-, rfl⟩ | ⟨-, time, clk, -, rfl⟩ := raise_eq_next hx
    · rfl
    · rfl
  rw [hexec] at h
  obtain ⟨-, hx⟩ | ⟨k, it, -, -, -, hx⟩ | ⟨k, it, -, -, -, hack⟩ := writeItem_eq_next h
  · rw [hraise _ hx]
  · rw [hraise _ hx]
  · obtain ⟨time, clk, -, rfl⟩ := transmit_eq_next hack
    exact dirtyAt_setLen s.items k j data.length

end Sys2Proof.Proofs.Effects
end

section
/-! Registration and the local operations (47_local_ops.md): what refuses a registration, what a value of the
application stands for at an item, and the steps of `SetValue`, `SetValueIfChanged`, `GetValue` and `SendGreeting`. -/

namespace Sys2Proof.Proofs.LocalOps

open Sys2Proof.Machine Sys2Proof.Stmt

/-! ### Registration -/

/-- A check that names its failure passes when its condition fails. -/
theorem ite_some_eq_none_iff {c : Prop} [Decidable c] {e : RegisterError} {x : Option RegisterError} :
    (if c then some e else x) = none ↔ ¬ c ∧ x = none := by
  by_cases h : c <;> simp [h]

/-- A registration is accepted exactly when none of its six causes of refusal holds (rules R6, R215, R252). -/
theorem registerProblem_eq_none_iff {address : Int} {kind : Kind} {capacity : Nat} {s : State} :
    registerProblem address kind capacity s = none ↔
      s.started = false ∧ s.items.length < s.config.tableCap ∧ (0 ≤ address ∧ address ≤ 65535) ∧
      (∀ it ∈ s.items, it.addr ≠ BitVec.ofInt 16 address) ∧ (kind = .array → capacity ≤ 65535) ∧
      arrayReceivable s.config kind (BitVec.ofInt 16 address) capacity := by
  simp only [registerProblem, ite_some_eq_none_iff, Bool.not_eq_true, not_le, not_or, not_lt, List.any_eq_false,
    beq_iff_eq, not_and, not_not, and_true, ne_eq]

theorem registerItem_of_problem {address : Int} {kind : Kind} {capacity : Nat} {s : State} {e : RegisterError}
    (h : registerProblem address kind capacity s = some e) :
    registerItem address kind capacity s = .refused (.registrationRefused e) := by
  simp only [registerItem, h]

/-- `s` with the item of an accepted registration appended (rule R215). -/
def withNewItem (address : Int) (kind : Kind) (capacity : Nat) (s : State) : State :=
  ((s.setItems (s.items ++ [newItem address kind capacity])).setMem
    (Memory.writeBytes s.mem (payloadBase s.items.length)
      (List.replicate (newItem address kind capacity).cap 0))).setResult (.handle s.items.length)

theorem registerItem_of_no_problem {address : Int} {kind : Kind} {capacity : Nat} {s : State}
    (h : registerProblem address kind capacity s = none) :
    registerItem address kind capacity s = .next (withNewItem address kind capacity s) := by
  simp only [registerItem, h]
  rfl

/-- In range the 16-bit address is the number it was given as (decision D4). -/
theorem toNat_eq_iff_eq_ofInt {a : Int} (h0 : 0 ≤ a) (h1 : a ≤ 65535) (x : Word16) :
    (x.toNat : Int) = a ↔ x = BitVec.ofInt 16 a := by
  obtain ⟨n, rfl⟩ := Int.eq_ofNat_of_zero_le h0
  have hn : n < 65536 := by omega
  rw [BitVec.ofInt_natCast, ← BitVec.toNat_inj, BitVec.toNat_ofNat, Nat.mod_eq_of_lt hn]
  exact Int.ofNat_inj

/-- With an address in range the causes of refusal are those of the application's own reading. -/
theorem registerProblem_eq_none_iff_of_range {a : Int} {kind : Kind} {cap : Nat} {s : State} (h0 : 0 ≤ a)
    (h1 : a ≤ 65535) :
    registerProblem a kind cap s = none ↔
      s.started = false ∧ s.items.length < s.config.tableCap ∧ (∀ it ∈ s.items, (it.addr.toNat : Int) ≠ a) ∧
      (kind = .array → cap ≤ 65535) ∧
      (kind = .array → (∃ b ∈ s.config.hostArrays, (b.toNat : Int) = a) → 7 + cap < s.config.rxCap) := by
  simp only [registerProblem_eq_none_iff, arrayReceivable, ne_eq, toNat_eq_iff_eq_ofInt h0 h1, exists_eq_right, h0,
    h1, true_and, and_self]

/-- A step is its event, run on the state with the event off the script. -/
theorem step_of_ready {s : State} {e : Input} (h : Ready s e) : step s = runInput e (s.setInputs s.inputs.tail) := by
  obtain ⟨hconfig, hevent⟩ := h
  rw [step_of_config hconfig, hevent]

/-- The payload bytes written at registration are 0 (rule R215). -/
theorem read_writeBytes_replicate {m : Memory} (hwf : Memory.wf m) (base cap : Nat) {j : Nat} (hj : j < cap) :
    Memory.read (Memory.writeBytes m base (List.replicate cap 0)) (base + j) = 0 := by
  have hin : base ≤ base + j ∧ base + j < base + (List.replicate cap (0 : Byte)).length := by simp [hj]
  rw [Memory.read_writeBytes _ _ _ _ hwf, if_pos hin]
  simp [hj]

/-- Settles O49: without a cause of refusal the item is appended; each listed cause is one of the six. -/
theorem registrationAppendsOrIsRefused : Obligations.RegistrationAppendsOrIsRefused := by
  intro s a kind cap hready hwf
  have hstep : step s = registerItem a kind cap (s.setInputs s.inputs.tail) := step_of_ready hready
  rw [hstep]
  constructor
  · intro hstarted hroom h0 h1 hfresh hcap hreceivable
    have hproblem : registerProblem a kind cap (s.setInputs s.inputs.tail) = none :=
      (registerProblem_eq_none_iff_of_range h0 h1).2 ⟨hstarted, hroom, hfresh, hcap, hreceivable⟩
    have haddr : ((newItem a kind cap).addr.toNat : Int) = a := (toNat_eq_iff_eq_ofInt h0 h1 _).2 rfl
    refine ⟨_, newItem a kind cap, registerItem_of_no_problem hproblem, rfl, haddr, rfl, rfl, rfl, rfl, ?_, rfl, rfl,
      ⟨rfl, rfl, rfl⟩⟩
    exact fun j hj => read_writeBytes_replicate hwf (payloadBase s.items.length) _ hj
  · intro hcause
    cases hproblem : registerProblem a kind cap (s.setInputs s.inputs.tail) with
    | some e => exact ⟨e, registerItem_of_problem hproblem⟩
    | none =>
      exfalso
      obtain ⟨-, -, ⟨h0, h1⟩, -⟩ := registerProblem_eq_none_iff.1 hproblem
      obtain ⟨hstarted, hroom, hfresh, hcap, hreceivable⟩ := (registerProblem_eq_none_iff_of_range h0 h1).1 hproblem
      obtain h | h | h | h | ⟨it, hit, h⟩ | ⟨hkind, h⟩ | ⟨hkind, hlisted, h⟩ := hcause
      · simp [h] at hstarted
      · exact absurd h hroom.not_ge
      · omega
      · omega
      · exact hfresh it hit h
      · exact absurd (hcap hkind) h.not_ge
      · exact absurd (hreceivable hkind hlisted) h.not_gt

/-! ### Values of the application -/

/-- The length check of a local write (rule R217). -/
theorem valueFits_iff {it : Item} {v : List Byte} : valueFits it v = true ↔ Fits it v := by
  unfold valueFits Fits
  cases it.kind <;> simp [klen, eq_comm]

theorem setWidth_ushiftRight_eq_extractLsb' (n : Word32) (k : Nat) : (n >>> k).setWidth 8 = n.extractLsb' k 8 := by
  ext j hj
  simp

/-- The bytes of a number, low byte first (rule R27). -/
theorem numberBytes_eq (n : Word32) :
    numberBytes n = [n.extractLsb' 0 8, n.extractLsb' 8 8, n.extractLsb' 16 8, n.extractLsb' 24 8] := by
  have hlow : n.setWidth 8 = n.extractLsb' 0 8 := by
    ext j hj
    simp
  rw [numberBytes, hlow, setWidth_ushiftRight_eq_extractLsb', setWidth_ushiftRight_eq_extractLsb',
    setWidth_ushiftRight_eq_extractLsb']

/-- A value stands for the bytes that the model gives it at the item's kind, and for no others (rule R27). -/
theorem valueBytes_iff {kind : Kind} {value : AppValue} {v : List Byte} :
    ValueBytes kind value v ↔ appBytes kind value = some v := by
  cases value with
  | bytes w => cases kind <;> simp [ValueBytes, appBytes]
  | number n => cases kind <;> simp [ValueBytes, appBytes, numberBytes_eq, eq_comm]

/-- The handle names an item and the value stands for bytes at its kind, or the operation has nothing to act on. -/
theorem valueBytes_cases (s : State) (h : Nat) (value : AppValue) :
    (∃ it v, s.items[h]? = some it ∧ ValueBytes it.kind value v) ∨
    ∀ it v, s.items[h]? = some it → ¬ ValueBytes it.kind value v := by
  by_cases hex : ∃ it v, s.items[h]? = some it ∧ ValueBytes it.kind value v
  · exact .inl hex
  · exact .inr fun it v hitem hv => hex ⟨it, v, hitem, hv⟩

/-- Item and bytes are determined by handle and value. -/
theorem valueBytes_unique {s : State} {h : Nat} {value : AppValue} {it it' : Item} {v v' : List Byte}
    (hitem : s.items[h]? = some it) (hv : ValueBytes it.kind value v) (hitem' : s.items[h]? = some it')
    (hv' : ValueBytes it'.kind value v') : it' = it ∧ v' = v := by
  obtain rfl : it' = it := Option.some.inj (hitem'.symm.trans hitem)
  exact ⟨rfl, Option.some.inj ((valueBytes_iff.1 hv').symm.trans (valueBytes_iff.1 hv))⟩

/-! ### The two kinds of next state -/

/-- A refusal, or an answer alone, changes nothing else. -/
theorem changesNothing_setResult (s : State) (r : AppResult) : ChangesNothing s ((begun s).setResult r) :=
  ⟨rfl, fun _ => rfl, rfl, ⟨rfl, rfl, rfl⟩, ⟨rfl, rfl, rfl⟩, ⟨rfl, rfl, rfl, rfl, rfl, rfl⟩⟩

/-- The store of a local write, whatever the operation answers (rules R217, R218). -/
theorem localWrite_writeLocal {s : State} {h : Nat} {it : Item} (v : List Byte) (r : AppResult)
    (hwf : Memory.wf s.mem) (hitem : s.items[h]? = some it) :
    LocalWrite s ((writeLocal h v (begun s)).setResult r) h it v := by
  refine ⟨WriteCommands.storedBytes_storeValue h v hwf, ?_, ?_, rfl, ⟨rfl, rfl, rfl⟩, ⟨rfl, rfl, rfl⟩,
    ⟨rfl, rfl, rfl, rfl, rfl, rfl⟩⟩
  · show ((s.items.modify h _).modify h _)[h]? = _
    simp [hitem]
  · intro j hj
    show ((s.items.modify h _).modify h _)[j]? = _
    simp [List.getElem?_modify_ne, hj.symm]

/-! ### `SetValue` and `SetValueIfChanged` -/

theorem setValue_of_valueBytes {s : State} {h : Nat} {value : AppValue} {it : Item} {v : List Byte}
    (hitem : s.items[h]? = some it) (hv : ValueBytes it.kind value v) :
    setValue h value s = if valueFits it v then .next ((writeLocal h v s).setResult .done) else refuse s := by
  simp only [setValue, hitem, valueBytes_iff.1 hv]

/-- A fitting value that differs is stored (rule R218). -/
theorem setValueIfChanged_of_stores {s : State} {h : Nat} {value : AppValue} {it : Item} {v : List Byte}
    (hitem : s.items[h]? = some it) (hv : ValueBytes it.kind value v) (hfits : Fits it v) (hdiffers : v ≠ valueOf s h) :
    setValueIfChanged h value s = .next ((writeLocal h v s).setResult (.changed true)) := by
  simp only [setValueIfChanged, hitem, valueBytes_iff.1 hv, valueFits_iff.2 hfits, hdiffers, if_true, if_false]

/-- The same value, or one of the wrong length, is answered false (rule R218). -/
theorem setValueIfChanged_of_keeps {s : State} {h : Nat} {value : AppValue} {it : Item} {v : List Byte}
    (hitem : s.items[h]? = some it) (hv : ValueBytes it.kind value v) (hkeeps : ¬ (Fits it v ∧ v ≠ valueOf s h)) :
    setValueIfChanged h value s = .next (s.setResult (.changed false)) := by
  simp only [setValueIfChanged, hitem, valueBytes_iff.1 hv]
  split
  next hfits => exact if_pos (not_not.1 fun hdiffers => hkeeps ⟨valueFits_iff.1 hfits, hdiffers⟩)
  next => rfl

/-- With no item or no bytes both operations are refused (rules R216, R217; log 9). -/
theorem refuse_of_no_valueBytes {s : State} {h : Nat} {value : AppValue}
    (hnone : ∀ it v, s.items[h]? = some it → ¬ ValueBytes it.kind value v) :
    setValue h value s = refuse s ∧ setValueIfChanged h value s = refuse s := by
  cases hitem : s.items[h]? with
  | none => exact ⟨by simp only [setValue, hitem], by simp only [setValueIfChanged, hitem]⟩
  | some it =>
    have hbytes : appBytes it.kind value = none :=
      Option.eq_none_iff_forall_ne_some.2 fun v hv => hnone it v hitem (valueBytes_iff.2 hv)
    exact ⟨by simp only [setValue, hitem, hbytes], by simp only [setValueIfChanged, hitem, hbytes]⟩

/-- Settles O44: the handle and the value give an item and bytes, whose length decides, or the operation is refused. -/
theorem setValueStoresAndMarksDirtyOrIsRefused : Obligations.SetValueStoresAndMarksDirtyOrIsRefused := by
  intro s h value hready hwf
  have hstep : step s = setValue h value (begun s) := step_of_ready hready
  rw [hstep]
  constructor
  · intro it v hitem hv hfits
    refine ⟨_, ?_, localWrite_writeLocal v .done hwf hitem, rfl⟩
    rw [setValue_of_valueBytes (s := begun s) hitem hv, if_pos (valueFits_iff.2 hfits)]
  · intro hmisfit
    refine ⟨_, ?_, changesNothing_setResult s .refused, rfl⟩
    obtain ⟨it, v, hitem, hv⟩ | hnone := valueBytes_cases s h value
    · rw [setValue_of_valueBytes (s := begun s) hitem hv,
        if_neg (mt valueFits_iff.1 (hmisfit it v hitem hv))]
      rfl
    · exact (refuse_of_no_valueBytes (s := begun s) hnone).1

/-- Settles O45: as O44, with the comparison before the store. -/
theorem setValueIfChangedComparesThenStores : Obligations.SetValueIfChangedComparesThenStores := by
  intro s h value hready hwf
  have hstep : step s = setValueIfChanged h value (begun s) := step_of_ready hready
  rw [hstep]
  obtain ⟨it, v, hitem, hv⟩ | hnone := valueBytes_cases s h value
  · by_cases hstores : Fits it v ∧ v ≠ valueOf s h
    · obtain ⟨hfits, hdiffers⟩ := hstores
      refine ⟨_, setValueIfChanged_of_stores (s := begun s) hitem hv hfits hdiffers, fun it' v' hitem' hv' => ?_,
        fun hnone => absurd hv (hnone it v hitem)⟩
      obtain ⟨rfl, rfl⟩ := valueBytes_unique hitem hv hitem' hv'
      exact ⟨fun _ _ => ⟨localWrite_writeLocal v' _ hwf hitem, rfl⟩,
        fun hkeeps => absurd hkeeps (not_or.2 ⟨not_not.2 hfits, hdiffers⟩)⟩
    · refine ⟨_, setValueIfChanged_of_keeps (s := begun s) hitem hv hstores, fun it' v' hitem' hv' => ?_,
        fun hnone => absurd hv (hnone it v hitem)⟩
      obtain ⟨rfl, rfl⟩ := valueBytes_unique hitem hv hitem' hv'
      exact ⟨fun hfits hdiffers => absurd ⟨hfits, hdiffers⟩ hstores,
        fun _ => ⟨changesNothing_setResult s _, rfl⟩⟩
  · rw [(refuse_of_no_valueBytes (s := begun s) hnone).2]
    exact ⟨_, rfl, fun it v hitem hv => absurd hv (hnone it v hitem), fun _ => ⟨changesNothing_setResult s _, rfl⟩⟩

/-! ### `GetValue` and `SendGreeting` -/

/-- Settles O46: only the answer is written, with the item's bytes or with the refusal. -/
theorem getValueAnswersTheBytesAndChangesNothing : Obligations.GetValueAnswersTheBytesAndChangesNothing := by
  intro s h hready
  have hstep : step s = getValue h (begun s) := step_of_ready hready
  rw [hstep]
  cases hitem : s.items[h]? with
  | none =>
    have hrefuse : getValue h (begun s) = refuse (begun s) := by
      simp only [getValue, show (begun s).items[h]? = none from hitem]
    exact ⟨_, hrefuse, changesNothing_setResult s _, nofun, fun _ => rfl⟩
  | some it =>
    have hanswer : getValue h (begun s) = .next ((begun s).setResult (.value (valueOf (begun s) h))) := by
      simp only [getValue, show (begun s).items[h]? = some it from hitem]
    refine ⟨_, hanswer, changesNothing_setResult s _, ?_, fun hout => ?_⟩
    · rintro _ ⟨⟩
      exact congrArg AppResult.value (PushLayout.valueOf_of_getElem? (s := begun s) hitem)
    · rw [List.getElem?_eq_none hout] at hitem
      cases hitem

/-- Settles O48: under the enable the greeting is a `transmit`, without it both operations are refused. -/
theorem unsolicitedOperationsNeedFullDuplex : Obligations.UnsolicitedOperationsNeedFullDuplex := by
  intro s e he hready
  rw [step_of_ready hready]
  constructor
  · rintro hfull rfl hlive
    obtain ⟨time, clk, htime, hsend⟩ := transmit_live .hello (s := begun s) hlive
    have hgreet : sendGreeting (begun s) =
        .next ((afterSend (statusFrame s 0xE6 0x00) time clk (begun s)).setResult .done) := by
      rw [sendGreeting, if_pos (show (begun s).config.fullDuplex = true from hfull), hsend]
      rfl
    exact ⟨_, hgreet, Sending.sends_afterSend clk htime rfl (List.append_nil _).symm rfl rfl, rfl, fun _ => rfl,
      ⟨rfl, rfl, rfl⟩, ⟨rfl, rfl, rfl, rfl, rfl, rfl⟩⟩
  · intro hhalf
    have hoff : ¬ (begun s).config.fullDuplex = true := Bool.eq_false_iff.1 hhalf
    refine ⟨_, ?_, changesNothing_setResult s .refused, rfl⟩
    obtain rfl | rfl := he
    · exact if_neg hoff
    · exact if_neg hoff

end Sys2Proof.Proofs.LocalOps
end

section
/-! What one step of the machine can do (10_state.md rules R11, R45), said once over every event, and what follows from
it for every step: the invariant, the configuration, the frames sent and their times. -/

namespace Sys2Proof.Proofs.Steps

open Sys2Proof.Machine Sys2Proof.Stmt Sys2Proof.Proofs.Effects Sys2Proof.Proofs.LocalOps

/-! ### The cases of a step -/

/-- A run of sends, as `PushAllDirty` makes one (rule R221). -/
abbrev SendRun : State → State → Prop := Relation.ReflTransGen fun s t => Effect .ack s t

theorem sendRun_of_pushEach {is : List Nat} {s t : State} (h : pushEach is s = .next t) : SendRun s t :=
  pushEach_induct (P := SendRun) (fun _ => .refl)
    (fun _ _ _ _ _ hpush hrest => .head (effect_of_pushItem hpush) hrest) is s t h

/-- What a step whose event is `e` can end in. -/
inductive StepCase (s : State) : Input → State → Prop
  /-- Bytes arrive. -/
  | arrived (bytes : List Byte) :
    StepCase s (.arrive bytes) ((s.setInputs s.inputs.tail).setRxFifo (s.rxFifo ++ bytes))
  /-- Time passes. -/
  | elapsed (ms : Word32) : StepCase s (.elapse ms) ((s.setInputs s.inputs.tail).setClock (s.clock + ms))
  /-- A poll invocation that finds no complete frame. -/
  | waited : StepCase s .poll (received (begun s))
  /-- A poll invocation that runs a frame, or answers a wrong CRC. -/
  | ran (i : Instr) (u : State) (heffect : Effect i (received (begun s)) u) : StepCase s .poll (u.setRxBuf [])
  /-- An accepted registration. -/
  | registered (address : Int) (kind : Kind) (capacity : Nat)
    (hproblem : registerProblem address kind capacity (s.setInputs s.inputs.tail) = none) :
    StepCase s (.register address kind capacity)
      (withNewItem address kind capacity (s.setInputs s.inputs.tail))
  /-- A local operation that only answers. -/
  | replied (e : Input) (r : AppResult) (he : e ≠ .poll) : StepCase s e ((begun s).setResult r)
  /-- A local write. -/
  | wrote (e : Input) (h : Nat) (it : Item) (v : List Byte) (r : AppResult) (he : e ≠ .poll)
    (hitem : s.items[h]? = some it) (hfits : Fits it v) :
    StepCase s e ((writeLocal h v (begun s)).setResult r)
  /-- An unsolicited operation. -/
  | unsolicited (e : Input) (u : State) (he : e ≠ .poll) (hfull : s.config.fullDuplex = true)
    (hrun : SendRun (begun s) u) : StepCase s e (u.setResult .done)

theorem stepCase_of_pollStep {s t : State} (h : pollStep (begun s) = .next t) : StepCase s .poll t := by
  obtain ⟨-, rfl⟩ | ⟨c, u, -, hraise, rfl⟩ | ⟨i, u, -, hexec, rfl⟩ := pollStep_eq_next h
  · exact .waited
  · exact .ran (.badcrc c) u (effect_of_raise hraise)
  · exact .ran i u (effect_of_exec hexec)

theorem stepCase_of_setValue {s t : State} {h : Nat} {value : AppValue}
    (hstep : setValue h value (begun s) = .next t) : StepCase s (.setValue h value) t := by
  obtain rfl | ⟨it, v, hitem, hfits, rfl⟩ := setValue_eq_next hstep
  · exact .replied _ _ nofun
  · exact .wrote _ h it v _ nofun hitem (valueFits_iff.1 hfits)

theorem stepCase_of_setValueIfChanged {s t : State} {h : Nat} {value : AppValue}
    (hstep : setValueIfChanged h value (begun s) = .next t) : StepCase s (.setValueIfChanged h value) t := by
  obtain ⟨r, rfl⟩ | ⟨it, v, hitem, hfits, -, rfl⟩ := setValueIfChanged_eq_next hstep
  · exact .replied _ _ nofun
  · exact .wrote _ h it v _ nofun hitem (valueFits_iff.1 hfits)

theorem stepCase_of_pushAllDirty {s t : State} (h : pushAllDirty (begun s) = .next t) :
    StepCase s .pushAllDirty t := by
  obtain ⟨-, rfl⟩ | ⟨hfull, -, u, hpush, rfl⟩ | ⟨hfull, -, u, hraise, rfl⟩ := pushAllDirty_eq_next h
  · exact .replied _ _ nofun
  · exact .unsolicited _ u nofun hfull (sendRun_of_pushEach hpush)
  · exact .unsolicited _ u nofun hfull (.single (effect_of_raise hraise))

theorem stepCase_of_sendGreeting {s t : State} (h : sendGreeting (begun s) = .next t) :
    StepCase s .sendGreeting t := by
  obtain ⟨-, rfl⟩ | ⟨hfull, u, hsend, rfl⟩ := sendGreeting_eq_next h
  · exact .replied _ _ nofun
  · exact .unsolicited _ u nofun hfull (.single (effect_of_transmit hsend))

/-- Every step is one of the cases, and runs only under a valid configuration (rule R6). -/
theorem stepCase_of_step {s t : State} (h : step s = .next t) :
    configOk s.config s.items ∧ StepCase s (nextInput s) t := by
  obtain ⟨hconfig, hrun⟩ := step_eq_next h
  refine ⟨hconfig, ?_⟩
  cases he : nextInput s <;> rw [he] at hrun
  case arrive bytes =>
    cases hrun
    exact .arrived bytes
  case elapse ms =>
    cases hrun
    exact .elapsed ms
  case poll => exact stepCase_of_pollStep hrun
  case register address kind capacity =>
    obtain ⟨hproblem, rfl⟩ := registerItem_eq_next hrun
    exact .registered address kind capacity hproblem
  case setValue h value => exact stepCase_of_setValue hrun
  case setValueIfChanged h value => exact stepCase_of_setValueIfChanged hrun
  case getValue h =>
    obtain ⟨r, rfl⟩ := getValue_eq_next hrun
    exact .replied _ r nofun
  case pushAllDirty => exact stepCase_of_pushAllDirty hrun
  case sendGreeting => exact stepCase_of_sendGreeting hrun

/-! ### The frames of a step -/

/-- What the receive side does before the dispatch sends nothing. -/
theorem received_trace (s : State) : (received s).trace = s.trace := by
  rw [received_eq]

theorem received_config (s : State) : (received s).config = s.config := by
  rw [received_eq]

/-- Settles O19: a poll invocation waits, or runs one instruction, which sends one frame at most. -/
theorem pollStepSendsAtMostOneFrame : Obligations.PollStepSendsAtMostOneFrame := by
  intro s t hevent h
  obtain ⟨-, hcase⟩ := stepCase_of_step h
  rw [hevent] at hcase
  cases hcase with
  | waited => exact ⟨[], by rw [received_trace, List.append_nil]; rfl, Nat.zero_le 1⟩
  | ran i u heffect =>
    obtain ⟨sent, hframes, hone⟩ := heffect.frames
    rw [received_trace] at hframes
    exact ⟨sent, hframes, hone⟩
  | replied _ _ he => exact absurd rfl he
  | wrote _ _ _ _ _ he => exact absurd rfl he
  | unsolicited _ _ he => exact absurd rfl he

/-- Settles O56: in half-duplex mode no event but a poll invocation sends, and `OnWrite` is no frame. -/
theorem halfDuplexSendsOnlyInPollSteps : Obligations.HalfDuplexSendsOnlyInPollSteps := by
  intro s t hhalf hevent h
  obtain ⟨-, hcase⟩ := stepCase_of_step h
  generalize nextInput s = e at hcase hevent
  cases hcase with
  | waited => exact absurd rfl hevent
  | ran => exact absurd rfl hevent
  | wrote _ k it v => exact WriteRead.framesOf_emit_onWrite k (storeValue k v (begun s))
  | unsolicited _ u _ hfull =>
    rw [hhalf] at hfull
    cases hfull
  | _ => rfl

/-! ### The times of a step -/

theorem sendRun_gains {s t : State} (h : SendRun s t) : Gains s t := by
  induction h with
  | refl => exact .refl s
  | tail _ heffect ih => exact ih.trans heffect.gains

/-- A case of a step starts, after the receive side has done its part, from a state with the trace of `s`. -/
theorem StepCase.gains {s t : State} {e : Input} (h : StepCase s e t) : ∃ u, u.trace = s.trace ∧ Gains u t := by
  cases h with
  | arrived => exact ⟨_, rfl, .refl _⟩
  | elapsed => exact ⟨_, rfl, .refl _⟩
  | waited => exact ⟨_, received_trace (begun s), .refl _⟩
  | ran i u heffect => exact ⟨_, received_trace (begun s), heffect.gains⟩
  | registered => exact ⟨_, rfl, .refl _⟩
  | replied => exact ⟨_, rfl, .refl _⟩
  | wrote _ k it v =>
    have hwrite : Gains (storeValue k v (begun s)) (writeLocal k v (begun s)) := gains_emit_onWrite k _
    exact ⟨_, rfl, hwrite⟩
  | unsolicited _ u _ _ hrun =>
    have hsends : Gains (begun s) u := sendRun_gains hrun
    exact ⟨_, rfl, hsends⟩

/-- Settles O41: every frame a step gains was sent at an allowed time, and no dispatch moves the time stamp. -/
theorem noStepWritesAFrameTooEarly : Obligations.NoStepWritesAFrameTooEarly := by
  intro s t h
  obtain ⟨u, htrace, hconfig, hstamp, gained, hgained, hok⟩ := (stepCase_of_step h).2.gains
  refine ⟨gained, by rw [hgained, htrace], fun f time hmem hturn => ?_⟩
  rw [hconfig, hstamp] at *
  exact WriteCommands.turnMs_le_of_txTimeOk (hok f time hmem) hturn

/-! ### The shape of the table -/

/-- The part of an item that is configuration (rule R24). -/
def shape (it : Item) : Word16 × Kind × Nat := (it.addr, it.kind, it.cap)

theorem map_shape_of_stores {k : Nat} {v : List Byte} {s t : State} (h : Stores k v s t) :
    t.items.map shape = s.items.map shape := by
  obtain ⟨-, -, hitems⟩ := h
  exact (map_eq_of_map_cleaned (fun _ => rfl) hitems).trans
    (map_modify_of_comp (f := fun it => { it with len := v.length }) (fun _ => rfl) s.items k)

theorem map_shape_of_flagsOnly {s t : State} (h : FlagsOnly s t) : t.items.map shape = s.items.map shape :=
  map_eq_of_map_cleaned (fun _ => rfl) h.2

theorem map_shape_of_effect {i : Instr} {s t : State} (h : Effect i s t) :
    t.items.map shape = s.items.map shape := by
  obtain hflags | ⟨addr, data, k, -, hstores⟩ := h.flagsOnly_or_stores
  · exact map_shape_of_flagsOnly hflags
  · exact map_shape_of_stores hstores

theorem map_shape_of_sendRun {s t : State} (h : SendRun s t) : t.items.map shape = s.items.map shape := by
  induction h with
  | refl => rfl
  | tail _ heffect ih => exact (map_shape_of_effect heffect).trans ih

/-- A local write stores its value; the flag it sets is not seen in `Stores`. -/
theorem stores_writeLocal {s : State} {h : Nat} {it : Item} {v : List Byte} (hitem : s.items[h]? = some it)
    (hfits : Fits it v) : Stores h v s (writeLocal h v s) :=
  ⟨⟨it, hitem, hfits⟩, rfl, map_cleaned_setDirty h true (storeValue h v s)⟩

theorem received_items (s : State) : (received s).items = s.items := by
  rw [received_eq]

/-- No case of a step changes the configuration. -/
theorem StepCase.config {s t : State} {e : Input} (h : StepCase s e t) : t.config = s.config := by
  cases h with
  | waited => exact received_config (begun s)
  | ran i u heffect =>
    obtain ⟨hconfig, -⟩ := heffect.gains
    exact hconfig.trans (received_config (begun s))
  | unsolicited _ u _ _ hrun =>
    obtain ⟨hconfig, -⟩ := sendRun_gains hrun
    exact hconfig
  | _ => rfl

/-- Only a registration, which comes before the first step, makes the table longer, and nothing else changes its
shape. -/
theorem StepCase.map_shape {s t : State} {e : Input} (h : StepCase s e t) :
    ∃ new, t.items.map shape = s.items.map shape ++ new ∧ (s.started = true → new = []) := by
  have hsame : t.items.map shape = s.items.map shape →
      ∃ new, t.items.map shape = s.items.map shape ++ new ∧ (s.started = true → new = []) :=
    fun hshape => ⟨[], by rw [hshape, List.append_nil], fun _ => rfl⟩
  cases h with
  | arrived => exact hsame rfl
  | elapsed => exact hsame rfl
  | waited => exact hsame (congrArg _ (received_items (begun s)))
  | ran i u heffect =>
    exact hsame ((map_shape_of_effect heffect).trans (congrArg _ (received_items (begun s))))
  | registered address kind capacity hproblem =>
    obtain ⟨hstarted, -⟩ := registerProblem_eq_none_iff.1 hproblem
    refine ⟨[shape (newItem address kind capacity)], List.map_append, fun h => ?_⟩
    rw [show s.started = false from hstarted] at h
    cases h
  | replied => exact hsame rfl
  | wrote _ k it v _ _ hitem hfits =>
    exact hsame (map_shape_of_stores (stores_writeLocal (s := begun s) hitem hfits))
  | unsolicited _ u _ _ hrun =>
    have hsends : u.items.map shape = (begun s).items.map shape := map_shape_of_sendRun hrun
    exact hsame hsends

theorem step_of_config_broken {s : State} (h : ¬ configOk s.config s.items) :
    step s = .refused .invalidConfiguration := if_neg h

/-- Settles O53: `StepCase.config` and `StepCase.map_shape`; and each broken constraint is one of `configOk`. -/
theorem configurationIsCheckedAndNeverChanged : Obligations.ConfigurationIsCheckedAndNeverChanged := by
  refine ⟨fun s t h => ?_, fun s hbroken => step_of_config_broken fun hok => ?_⟩
  · obtain ⟨-, hcase⟩ := stepCase_of_step h
    exact ⟨hcase.config, hcase.map_shape⟩
  · obtain ⟨htable, hdistinct, hitems, hbuffer, hreceivable⟩ := hok
    obtain h | h | ⟨i, j, a, b, hij, ha, hb, hab⟩ | ⟨it, hit, h | ⟨n, hklen, hcap⟩ | ⟨hkind, hlisted, h⟩⟩ := hbroken
    · omega
    · omega
    · obtain ⟨hi, rfl⟩ := List.getElem?_eq_some_iff.1 ha
      obtain ⟨hj, rfl⟩ := List.getElem?_eq_some_iff.1 hb
      exact List.pairwise_iff_getElem.1 hdistinct i j hi hj hij hab
    · exact absurd (hitems it hit).1 h.not_ge
    · obtain ⟨-, hnone | hsome⟩ := hitems it hit
      · rw [hnone] at hklen
        cases hklen
      · exact hcap (Option.some.inj (hsome.symm.trans hklen))
    · exact absurd (hreceivable it hit hkind hlisted) h.not_gt

/-! ### The invariant of the table -/

/-- The part of the invariant that speaks of items and payload bytes (rules R6, R25, R35). -/
def TableOk (config : Config) (items : List Item) (m : Memory) : Prop :=
  configOk config items ∧ (∀ it ∈ items, itemLenOk it) ∧ Memory.wf m ∧ payloadInside items m

/-- The invariant, by its parts. -/
theorem inv_iff {s : State} :
    s.Inv ↔ TableOk s.config s.items s.mem ∧ s.rxBuf.length ≤ s.config.rxCap ∧ schedulerOk s ∧ s.dir = false := by
  unfold State.Inv TableOk
  tauto

/-- No part of it looks at a flag. -/
theorem tableOk_map_cleaned {config : Config} {items : List Item} {m : Memory} :
    TableOk config (items.map cleaned) m ↔ TableOk config items m := by
  simp [TableOk, configOk, payloadInside, List.pairwise_map, cleaned]

theorem tableOk_congr {config : Config} {items items' : List Item} {m : Memory}
    (h : items'.map cleaned = items.map cleaned) (hok : TableOk config items m) : TableOk config items' m :=
  tableOk_map_cleaned.1 (h ▸ tableOk_map_cleaned.2 hok)

/-- What holds of every item holds after a change of one that keeps it there. -/
theorem forall_mem_modify {P : Item → Prop} {f : Item → Item} {items : List Item} {k : Nat} (h : ∀ it ∈ items, P it)
    (hk : ∀ it, items[k]? = some it → P (f it)) : ∀ it ∈ items.modify k f, P it := by
  intro it hit
  obtain ⟨j, hj⟩ := List.mem_iff_getElem?.1 hit
  by_cases hkj : k = j
  · subst hkj
    obtain ⟨it', hitem, rfl⟩ : ∃ it', items[k]? = some it' ∧ f it' = it := by simpa using hj
    exact hk it' hitem
  · rw [List.getElem?_modify_ne _ _ hkj] at hj
    exact h it (List.mem_of_getElem? hj)

/-- A value that fits gives the item a legal length (rule R35 (b)). -/
theorem itemLenOk_of_fits {it : Item} {v : List Byte} (hconfig : itemConfigOk it) (hfits : Fits it v) :
    itemLenOk { it with len := v.length } := by
  obtain ⟨-, hcap⟩ := hconfig
  unfold Fits at hfits
  split at hfits
  next harray => exact ⟨hfits, .inl (PushLayout.klen_eq_none_iff.2 harray)⟩
  next harray =>
    have hlen : v.length = it.cap := by
      have := hcap.resolve_left (mt PushLayout.klen_eq_none_iff.1 harray)
      exact Option.some.inj (hfits.symm.trans this)
    exact ⟨hlen.le, .inr hfits⟩

/-- The payload of an item ends before the next item's begins (rules R6, R63). -/
theorem payload_index {k a n cap : Nat} (hcap : cap ≤ 65535) (hn : n ≤ cap) (hlow : payloadBase k ≤ a)
    (hhigh : a < payloadBase k + n) : a / 65536 = k ∧ a % 65536 < cap := by
  unfold payloadBase at hlow hhigh
  omega

/-- A change of one item that keeps its shape keeps the constraints on the configuration. -/
theorem configOk_congr {config : Config} {items items' : List Item} (h : items'.map shape = items.map shape)
    (hok : configOk config items) : configOk config items' := by
  have hshape : ∀ l : List Item, configOk config l ↔
      (l.map shape).length ≤ config.tableCap ∧ (l.map shape).Pairwise (fun a b => a.1 ≠ b.1) ∧
        (∀ x ∈ l.map shape, x.2.2 ≤ 65535 ∧ (klen x.2.1 = none ∨ klen x.2.1 = some x.2.2)) ∧ 10 ≤ config.rxCap ∧
        ∀ x ∈ l.map shape, arrayReceivable config x.2.1 x.1 x.2.2 := by
    intro l
    simp [configOk, itemConfigOk, List.pairwise_map, shape]
  exact (hshape items').2 (h ▸ (hshape items).1 hok)

/-- The bytes of the store stay inside the items when these keep their shape. -/
theorem payloadInside_congr {items items' : List Item} {m : Memory} (h : items'.map shape = items.map shape)
    (hinside : payloadInside items m) : payloadInside items' m := by
  have hshape : ∀ l : List Item, payloadInside l m ↔
      ∀ c ∈ m, ∃ x ∈ (l.map shape)[c.1 / 65536]?, c.1 % 65536 < x.2.2 := by
    intro l
    simp [payloadInside, shape]
  exact (hshape items').2 (h ▸ (hshape items).1 hinside)

/-- Bytes written inside an item's payload, to a store that is inside the table, are inside the table. -/
theorem payloadInside_writeBytes {items : List Item} {m : Memory} {k : Nat} {it : Item} {v : List Byte}
    (hinside : payloadInside items m) (hitem : items[k]? = some it) (hcap : it.cap ≤ 65535)
    (hlen : v.length ≤ it.cap) : payloadInside items (Memory.writeBytes m (payloadBase k) v) := by
  intro c hc
  obtain ⟨hlow, hhigh⟩ | hold := Memory.mem_writeBytes v m _ c hc
  · obtain ⟨hindex, hoffset⟩ := payload_index hcap hlen hlow hhigh
    rw [hindex]
    exact ⟨it, hitem, hoffset⟩
  · exact hinside c hold

/-- A store of a value that fits keeps the table's invariant. -/
theorem tableOk_storeValue {config : Config} {s : State} {k : Nat} {it : Item} {v : List Byte}
    (hok : TableOk config s.items s.mem) (hitem : s.items[k]? = some it) (hfits : Fits it v) :
    TableOk config (storeValue k v s).items (storeValue k v s).mem := by
  obtain ⟨hconfig, hlens, hwf, hinside⟩ := hok
  have hitemOk : itemConfigOk it := by
    obtain ⟨-, -, hitems, -⟩ := hconfig
    exact hitems it (List.mem_of_getElem? hitem)
  have hlenOk : itemLenOk { it with len := v.length } := itemLenOk_of_fits hitemOk hfits
  have hshape : (storeValue k v s).items.map shape = s.items.map shape :=
    map_modify_of_comp (f := fun it => { it with len := v.length }) (fun _ => rfl) s.items k
  refine ⟨configOk_congr hshape hconfig, ?_, Memory.writeBytes_wf v _ _ hwf, ?_⟩
  · refine forall_mem_modify hlens fun it' hitem' => ?_
    obtain rfl := Option.some.inj (hitem'.symm.trans hitem)
    exact hlenOk
  · exact payloadInside_congr hshape (payloadInside_writeBytes hinside hitem hitemOk.1 hlenOk.1)

theorem tableOk_of_stores {s t : State} {k : Nat} {v : List Byte} (h : Stores k v s t)
    (hok : TableOk s.config s.items s.mem) : TableOk s.config t.items t.mem := by
  obtain ⟨⟨it, hitem, hfits⟩, hmem, hitems⟩ := h
  rw [hmem]
  exact tableOk_congr hitems (tableOk_storeValue hok hitem hfits)

theorem tableOk_of_effect {i : Instr} {s t : State} (h : Effect i s t) (hok : TableOk s.config s.items s.mem) :
    TableOk s.config t.items t.mem := by
  obtain ⟨hmem, hitems⟩ | ⟨addr, data, k, -, hstores⟩ := h.flagsOnly_or_stores
  · rw [hmem]
    exact tableOk_congr hitems hok
  · exact tableOk_of_stores hstores hok

/-! ### The invariant of an effect -/

theorem length_eq_of_effect {i : Instr} {s t : State} (h : Effect i s t) : t.items.length = s.items.length := by
  have := congrArg List.length (map_shape_of_effect h)
  rwa [List.length_map, List.length_map] at this

/-- A scan leaves legal registers, and nothing else writes them. -/
theorem schedulerOk_of_effect {i : Instr} {s t : State} (h : Effect i s t) (hok : schedulerOk s) : schedulerOk t := by
  have hlength := length_eq_of_effect h
  unfold schedulerOk
  rw [hlength]
  cases h with
  | pushed items k f time clk cursor active start _ hlegal => exact hlegal hok
  | swept items f time clk cursor start _ hlegal => exact hlegal hok
  | _ => exact hok

/-- A `Send` leaves the direction line at rest (rule R203). -/
theorem dir_of_effect {i : Instr} {s t : State} (h : Effect i s t) (hrest : s.dir = false) : t.dir = false := by
  cases h with
  | silent => exact hrest
  | _ => exact ite_eq_left_iff.2 fun _ => hrest

theorem inv_of_effect {i : Instr} {s t : State} (h : Effect i s t) (hinv : s.Inv) : t.Inv := by
  obtain ⟨htable, hbuf, hsched, hdir⟩ := inv_iff.1 hinv
  obtain ⟨hconfig, hrx, -⟩ := h.sameRest
  refine inv_iff.2 ⟨?_, ?_, schedulerOk_of_effect h hsched, dir_of_effect h hdir⟩
  · rw [hconfig]
    exact tableOk_of_effect h htable
  · rw [hconfig, hrx]
    exact hbuf

theorem inv_of_sendRun {s t : State} (h : SendRun s t) (hinv : s.Inv) : t.Inv := by
  induction h with
  | refl => exact hinv
  | tail _ heffect ih => exact inv_of_effect heffect ih

/-! ### The invariant of a step -/

theorem inv_received {s : State} (hinv : s.Inv) : (received s).Inv := by
  obtain ⟨htable, hbuf, hsched, hdir⟩ := inv_iff.1 hinv
  have hbound := received_bound s hbuf
  rw [received_eq]
  exact inv_iff.2 ⟨htable, hbound, hsched, hdir⟩

theorem inv_setRxBuf_nil {s : State} (hinv : s.Inv) : (s.setRxBuf []).Inv := by
  obtain ⟨htable, -, hsched, hdir⟩ := inv_iff.1 hinv
  exact inv_iff.2 ⟨htable, Nat.zero_le _, hsched, hdir⟩

theorem inv_writeLocal {s : State} {k : Nat} {it : Item} {v : List Byte} (hinv : s.Inv)
    (hitem : s.items[k]? = some it) (hfits : Fits it v) : (writeLocal k v s).Inv := by
  obtain ⟨htable, hbuf, ⟨hcursor, hstart, hopen⟩, hdir⟩ := inv_iff.1 hinv
  have hlength : (writeLocal k v s).items.length = s.items.length := by
    have := congrArg List.length (map_shape_of_stores (stores_writeLocal hitem hfits))
    rwa [List.length_map, List.length_map] at this
  have hwritten := tableOk_of_stores (stores_writeLocal hitem hfits) htable
  refine inv_iff.2 ⟨hwritten, hbuf, ?_, hdir⟩
  unfold schedulerOk
  rw [hlength]
  exact ⟨hcursor, hstart, hopen⟩

/-! ### Registration -/

/-- The item of an accepted registration meets the constraints on an item (rules R6, R35). -/
theorem newItem_ok {address : Int} {kind : Kind} {capacity : Nat} (hcap : kind = .array → capacity ≤ 65535) :
    itemConfigOk (newItem address kind capacity) ∧ itemLenOk (newItem address kind capacity) := by
  cases kind with
  | array => exact ⟨⟨hcap rfl, .inl rfl⟩, Nat.zero_le _, .inl rfl⟩
  | _ => exact ⟨⟨by simp [newItem, klen], .inr rfl⟩, le_rfl, .inr rfl⟩

theorem configOk_append {config : Config} {items : List Item} {it : Item} (hok : configOk config items)
    (hroom : items.length < config.tableCap) (hfresh : ∀ it' ∈ items, it'.addr ≠ it.addr) (hitem : itemConfigOk it)
    (hreceivable : arrayReceivable config it.kind it.addr it.cap) : configOk config (items ++ [it]) := by
  obtain ⟨-, hdistinct, hitems, hbuffer, harrays⟩ := hok
  refine ⟨by simp; omega, ?_, ?_, hbuffer, ?_⟩
  · rw [List.pairwise_append]
    exact ⟨hdistinct, List.pairwise_singleton _ _, by simpa using hfresh⟩
  · rw [List.forall_mem_append]
    exact ⟨hitems, by simpa using hitem⟩
  · rw [List.forall_mem_append]
    exact ⟨harrays, by simpa using hreceivable⟩

theorem payloadInside_append {items : List Item} {m : Memory} (more : List Item) (hinside : payloadInside items m) :
    payloadInside (items ++ more) m := by
  intro c hc
  obtain ⟨it, hitem, hoffset⟩ := hinside c hc
  exact ⟨it, List.getElem?_append_left (List.getElem?_eq_some_iff.1 hitem).1 ▸ hitem, hoffset⟩

theorem tableOk_withNewItem {address : Int} {kind : Kind} {capacity : Nat} {s : State}
    (hproblem : registerProblem address kind capacity s = none) (hok : TableOk s.config s.items s.mem) :
    TableOk s.config (withNewItem address kind capacity s).items (withNewItem address kind capacity s).mem := by
  obtain ⟨-, hroom, -, hfresh, hcap, hreceivable⟩ := registerProblem_eq_none_iff.1 hproblem
  obtain ⟨hconfig, hlens, hwf, hinside⟩ := hok
  obtain ⟨hitemOk, hlenOk⟩ := newItem_ok (address := address) hcap
  have hlast : (s.items ++ [newItem address kind capacity])[s.items.length]? = some (newItem address kind capacity) :=
    List.getElem?_concat_length
  refine ⟨configOk_append hconfig hroom hfresh hitemOk ?_, ?_, Memory.writeBytes_wf _ _ _ hwf, ?_⟩
  · rintro rfl
    exact hreceivable rfl
  · exact List.forall_mem_append.2 ⟨hlens, by simpa using hlenOk⟩
  · exact payloadInside_writeBytes (payloadInside_append _ hinside) hlast hitemOk.1 (by simp)

theorem inv_withNewItem {address : Int} {kind : Kind} {capacity : Nat} {s : State}
    (hproblem : registerProblem address kind capacity s = none) (hinv : s.Inv) :
    (withNewItem address kind capacity s).Inv := by
  obtain ⟨htable, hbuf, ⟨hcursor, hstart, hopen⟩, hdir⟩ := inv_iff.1 hinv
  have htable' := tableOk_withNewItem hproblem htable
  -- a longer table leaves more room for the registers
  have hlonger : max s.items.length 1 ≤ max (s.items ++ [newItem address kind capacity]).length 1 := by
    rw [List.length_append]
    omega
  exact inv_iff.2 ⟨htable', hbuf, ⟨hcursor.trans_le hlonger, hstart.trans_le hlonger, hopen⟩, hdir⟩

/-- Settles O52: each case of a step is made of operations that keep the invariant. -/
theorem everyStepKeepsTheInvariant : Obligations.EveryStepKeepsTheInvariant := by
  intro s t hinv h
  have hbegun : (begun s).Inv := hinv
  obtain ⟨-, hcase⟩ := stepCase_of_step h
  generalize nextInput s = e at hcase
  cases hcase with
  | arrived => exact hinv
  | elapsed => exact hinv
  | waited => exact inv_received hbegun
  | ran i u heffect => exact inv_setRxBuf_nil (inv_of_effect heffect (inv_received hbegun))
  | registered address kind capacity hproblem => exact inv_withNewItem hproblem hinv
  | replied => exact hinv
  | wrote _ k it v _ _ hitem hfits =>
    have hwritten : (writeLocal k v (begun s)).Inv := inv_writeLocal hbegun hitem hfits
    exact hwritten
  | unsolicited _ u _ _ hrun =>
    have hsends : u.Inv := inv_of_sendRun hrun hbegun
    exact hsends

/-! ### Reset -/

/-- The item of a layout as reset leaves it (rules R47, R250). -/
def resetItem (it : Item) : Item := { it with len := (klen it.kind).getD 0, dirty := false }

theorem itemLenOk_resetItem {it : Item} (h : itemConfigOk it) : itemLenOk (resetItem it) := by
  obtain ⟨-, harray | hfixed⟩ := h
  · simp [itemLenOk, resetItem, harray]
  · simp [itemLenOk, resetItem, hfixed]

/-- Settles O50: every field is written down in `State.resetWith`, and an empty store reads 0. -/
theorem resetPutsEveryRegisterAtItsValue : Obligations.ResetPutsEveryRegisterAtItsValue := by
  intro config layout s
  refine ⟨rfl, rfl, rfl, fun _ => rfl, List.length_map _, fun i it hitem => ?_, rfl, rfl, rfl, rfl, rfl⟩
  show (layout.map resetItem)[i]? = _
  rw [List.getElem?_map, hitem]
  rfl

theorem inv_resetWith {config : Config} {layout : List Item} (hok : configOk config layout) :
    (State.resetWith config layout).Inv := by
  have hshape : (layout.map resetItem).map shape = layout.map shape := by
    rw [List.map_map]
    rfl
  obtain ⟨-, -, hitems, -⟩ := id hok
  have hlens : ∀ it ∈ layout.map resetItem, itemLenOk it :=
    List.forall_mem_map.2 fun it hit => itemLenOk_resetItem (hitems it hit)
  have hzero : 0 < max (layout.map resetItem).length 1 := lt_max_of_lt_right Nat.one_pos
  exact ⟨configOk_congr hshape hok, Nat.zero_le _, hlens, ⟨hzero, hzero, nofun⟩, rfl, Memory.wf_nil, nofun⟩

/-- Settles O51: `inv_resetWith`, for `State.reset` with the default configuration and no item. -/
theorem resetMeetsTheInvariant : Obligations.ResetMeetsTheInvariant :=
  ⟨inv_resetWith (by decide), fun _ _ hok => inv_resetWith hok⟩

end Sys2Proof.Proofs.Steps
end

section
/-! Pushes, reads and writes as instructions (43_read.md, 44_write.md section 2, 45_tx_frames.md sections 1 and 2): the
push of an item, by itself, for a read, and as the push frame made from it; the four-byte writes; the missing address.
-/

namespace Sys2Proof.Proofs.Pushing

open Sys2Proof.Machine Sys2Proof.Stmt Sys2Proof.Proofs.Effects

/-! ### The push of an item -/

/-- `s` after the push of item `j`, which is `it` (rules R180, R181). -/
def pushedState (j : Nat) (it : Item) (time clk : Word32) (s : State) : State :=
  afterSend (encode s.config.devAddr (pushFrame j it s.mem)) time clk (setDirty j false s)

theorem getElem?_setDirty_self {s : State} {j : Nat} {it : Item} (b : Bool) (h : s.items[j]? = some it) :
    (setDirty j b s).items[j]? = some { it with dirty := b } := by
  simp [h]

theorem getElem?_setDirty_ne {s : State} {j k : Nat} (b : Bool) (h : k ≠ j) :
    (setDirty j b s).items[k]? = s.items[k]? := by
  simp [List.getElem?_modify_ne, h.symm]

/-- The frame of a push has the item's layout, its flag is cleared, and nothing else changes (rules R179 to R181). -/
theorem pushedItem_pushedState {s : State} {j : Nat} {it : Item} {time : Word32} (clk : Word32)
    (hitem : s.items[j]? = some it) (hlen : itemLenOk it) (htime : txTimeOk s time = true) :
    PushedItem s (pushedState j it time clk s) j it := by
  have hframe := PushLayout.pushFrameHasTheItemsLayout s j it hitem hlen
  refine ⟨?_, getElem?_setDirty_self false hitem, fun k hk => getElem?_setDirty_ne false hk, fun _ => rfl,
    ⟨rfl, rfl, rfl, rfl, rfl, rfl, rfl⟩⟩
  rw [← hframe]
  exact Sending.sends_afterSend clk htime rfl (List.append_nil _).symm rfl rfl

/-! ### `READ` -/

/-- Settles O25: the read of a found address is the push of its item. -/
theorem readAnswersTheWholeValue : Obligations.ReadAnswersTheWholeValue := by
  intro s addr i it hlive hfound hlen
  have hitem : s.items[i]? = some it := hfound.1
  obtain ⟨time, clk, htime, hpush⟩ := pushItem_live hitem hlive
  have hread : exec (.read addr) s = pushItem i s := by
    show execRead addr s = _
    simp only [execRead, WriteRead.lookup_of_foundAt hfound]
  exact ⟨pushedState i it time clk s, hread.trans hpush, pushedItem_pushedState clk hitem hlen htime, rfl, rfl, rfl⟩

/-! ### The missing address -/

/-- Settles O26: the lookup misses, so a read and an `ExecWrite` both raise the outcome. -/
theorem missingAddressAnswersNoAddr : Obligations.MissingAddressAnswersNoAddr := by
  intro s addr ins data hlive hmissing hins
  have hlookup : lookup addr s.items = none := lookup_none.2 hmissing
  have hraise : exec ins s = raise .addressNotFound s := by
    obtain rfl | hwrite := hins
    · show execRead addr s = _
      simp only [execRead, hlookup]
    · obtain ⟨cmd, hexec, -⟩ := exists_writeItem_of_writeOf hwrite
      rw [hexec]
      simp only [writeItem, hlookup]
  rw [hraise]
  exact Sending.raise_onlySends hlive rfl

/-! ### The four-byte writes -/

theorem fourByte_of_mem {k : Kind} (h : k ∈ [Kind.dword, .float, .hsb, .rgb, .rgbw]) : fourByte k = true := by
  cases k with
  | byte | word | array => simp at h
  | _ => rfl

/-- Settles O29: each of the two commands passes the check of every four-byte kind. -/
theorem wrdAndWrcStoreFourBytesInAnyFourByteItem : Obligations.WrdAndWrcStoreFourBytesInAnyFourByteItem := by
  intro s ins addr d0 d1 d2 d3 i it hwf hlive hins hfound hkind
  have hfour := fourByte_of_mem hkind
  obtain rfl | rfl := hins
  · exact WriteCommands.acceptedWrite_of_fits hwf hlive hfound (WriteCommands.storeFits_wrd.2 hfour)
  · exact WriteCommands.acceptedWrite_of_fits hwf hlive hfound (WriteCommands.storeFits_wrc.2 hfour)

/-! ### Push frames as instructions -/

/-- The push frame made from an item reports the item's address (rules R182 to R186). -/
theorem exec_pushFrame (i : Nat) (it : Item) (m : Memory) (s : State) :
    exec (pushFrame i it m) s = report it.addr (pushFrame i it m) s := by
  unfold pushFrame
  cases it.kind <;> rfl

/-- Settles O38: the item is the one the report finds by its address. -/
theorem pushOfAnItemIsItsPushInstruction : Obligations.PushOfAnItemIsItsPushInstruction := by
  intro s i it hfound
  have hitem : s.items[i]? = some it := hfound.1
  rw [exec_pushFrame]
  simp only [pushItem, report, hitem, WriteRead.lookup_of_foundAt hfound]

/-- The items a report leaves: the first with the address is clean, the others are untouched (rule R181). -/
theorem exists_setItems_of_report (addr : Word16) (s : State) :
    ∃ items, ((lookup addr s.items).elim s fun k => setDirty k false s) = s.setItems items ∧
      (∀ i it, FoundAt s addr i it → items[i]? = some { it with dirty := false } ∧
        ∀ j, j ≠ i → items[j]? = s.items[j]?) ∧
      (Missing s addr → items = s.items) := by
  cases hlookup : lookup addr s.items with
  | none =>
    refine ⟨s.items, rfl, fun i it hfound => ?_, fun _ => rfl⟩
    rw [WriteRead.lookup_of_foundAt hfound] at hlookup
    cases hlookup
  | some k =>
    refine ⟨(setDirty k false s).items, rfl, fun i it hfound => ?_, fun hmissing => ?_⟩
    · rw [WriteRead.lookup_of_foundAt hfound] at hlookup
      cases hlookup
      have hitem : s.items[k]? = some it := hfound.1
      exact ⟨getElem?_setDirty_self false hitem, fun j hj => getElem?_setDirty_ne false hj⟩
    · rw [lookup_none.2 hmissing] at hlookup
      cases hlookup

/-- A report over a line that returns: the frame is sent and nothing but the found item's flag changes. -/
theorem report_live {s : State} (addr : Word16) (i : Instr) (hlive : linkLive s) :
    ∃ t, report addr i s = .next t ∧ Sends s t [] (encode s.config.devAddr i) ∧ SameMemory s t ∧
      SameScheduler s t ∧ SameRest s t ∧
      (∀ i it, FoundAt s addr i it → t.items[i]? = some { it with dirty := false } ∧ SameOtherItems s t i) ∧
      (Missing s addr → t.items = s.items) := by
  obtain ⟨items, hitems, hfound, hmissing⟩ := exists_setItems_of_report addr s
  have hreport : report addr i s = transmit i (s.setItems items) := by
    rw [← hitems, report]
    cases lookup addr s.items <;> rfl
  obtain ⟨time, clk, htime, hsend⟩ := transmit_live i (s := s.setItems items) hlive
  exact ⟨_, hreport.trans hsend, Sending.sends_afterSend clk htime rfl (List.append_nil _).symm rfl rfl,
    fun _ => rfl, ⟨rfl, rfl, rfl⟩, ⟨rfl, rfl, rfl, rfl, rfl, rfl, rfl⟩, hfound, hmissing⟩

/-- Settles O36: each push frame is a report of its address, and its format is the encoder's. -/
theorem pushFramesAreSentAndCleanTheirItem : Obligations.PushFramesAreSentAndCleanTheirItem := by
  intro s ins addr body hlive hform
  have hreport : exec ins s = report addr ins s ∧ ins.code :: ins.body = body := by
    obtain ⟨d0, rfl, rfl⟩ | ⟨d0, d1, rfl, rfl⟩ | ⟨d0, d1, d2, d3, rfl, rfl⟩ | ⟨d0, d1, d2, d3, rfl, rfl⟩ |
      ⟨data, rfl, rfl⟩ := hform
    · exact ⟨rfl, rfl⟩
    · exact ⟨rfl, rfl⟩
    · exact ⟨rfl, rfl⟩
    · exact ⟨rfl, rfl⟩
    · exact ⟨rfl, rfl⟩
  obtain ⟨hexec, rfl⟩ := hreport
  rw [hexec]
  exact report_live addr ins hlive

end Sys2Proof.Proofs.Pushing
end

section
/-! One poll of the scheduler (42_poll_scheduler.md sections 1 and 2): what the scan finds is the first dirty item of
the walk, and a poll pushes it or answers `NODATA`. -/

namespace Sys2Proof.Proofs.Polling

open Sys2Proof.Machine Sys2Proof.Stmt Sys2Proof.Proofs.Effects Sys2Proof.Proofs.Pushing

/-! ### The walk -/

/-- From index `c` on, wrapping, the first dirty index, at most `fuel` places and not past `start` (rule R144). -/
def FirstFrom (items : List Item) (start fuel c j : Nat) : Prop :=
  ∃ k, (k < fuel ∧ ∀ m, 0 < m → m ≤ k → (c + m) % items.length ≠ start) ∧ j = (c + k) % items.length ∧
    dirtyAt items j = true ∧ ∀ m < k, dirtyAt items ((c + m) % items.length) = false

/-- The next index of the walk, and the places after it. -/
theorem mod_succ_add (c m n : Nat) : ((c + 1) % n + m) % n = (c + (m + 1)) % n := by
  rw [Nat.mod_add_mod, Nat.add_assoc, Nat.add_comm 1 m]

/-- A dirty index is the first of its walk. -/
theorem firstFrom_of_dirty {items : List Item} {start fuel c j : Nat} (hc : c < items.length)
    (hdirty : dirtyAt items c = true) : FirstFrom items start (fuel + 1) c j ↔ c = j := by
  have hself : (c + 0) % items.length = c := Nat.mod_eq_of_lt hc
  constructor
  · rintro ⟨k, -, rfl, -, hclean⟩
    obtain rfl | hk := Nat.eq_zero_or_pos k
    · exact hself.symm
    · have := hclean 0 hk
      rw [hself, hdirty] at this
      cases this
  · rintro rfl
    exact ⟨0, ⟨Nat.succ_pos _, fun m hm hm' => absurd hm hm'.not_gt⟩, hself.symm, hdirty,
      fun m hm => absurd hm (Nat.not_lt_zero m)⟩

/-- Past a clean index the walk ends at its start, and goes on at the next index otherwise. -/
theorem firstFrom_of_clean {items : List Item} {start fuel c j : Nat} (hc : c < items.length)
    (hclean : dirtyAt items c = false) :
    FirstFrom items start (fuel + 1) c j ↔
      (c + 1) % items.length ≠ start ∧ FirstFrom items start fuel ((c + 1) % items.length) j := by
  have hself : (c + 0) % items.length = c := Nat.mod_eq_of_lt hc
  constructor
  · rintro ⟨k, ⟨hk, hwalk⟩, rfl, hdirty, hbefore⟩
    obtain rfl | ⟨k, rfl⟩ : k = 0 ∨ ∃ k', k = k' + 1 := by cases k <;> simp
    · rw [hself, hclean] at hdirty
      cases hdirty
    · refine ⟨hwalk 1 Nat.one_pos (Nat.le_add_left 1 k), k, ⟨Nat.lt_of_succ_lt_succ hk, fun m hm hm' => ?_⟩, ?_,
        hdirty, fun m hm => ?_⟩
      · rw [mod_succ_add]
        exact hwalk (m + 1) (Nat.succ_pos m) (Nat.succ_le_succ hm')
      · rw [mod_succ_add]
      · rw [mod_succ_add]
        exact hbefore (m + 1) (Nat.succ_lt_succ hm)
  · rintro ⟨hnext, k, ⟨hk, hwalk⟩, rfl, hdirty, hbefore⟩
    rw [mod_succ_add] at hdirty ⊢
    refine ⟨k + 1, ⟨Nat.succ_lt_succ hk, fun m hm hm' => ?_⟩, rfl, hdirty, fun m hm => ?_⟩
    · obtain ⟨m, rfl⟩ := Nat.exists_eq_succ_of_ne_zero hm.ne'
      obtain rfl | hpos := Nat.eq_zero_or_pos m
      · exact hnext
      · have := hwalk m hpos (Nat.le_of_succ_le_succ hm')
        rwa [mod_succ_add] at this
    · obtain rfl | ⟨m, rfl⟩ : m = 0 ∨ ∃ m', m = m' + 1 := by cases m <;> simp
      · rw [hself]
        exact hclean
      · have := hbefore m (Nat.lt_of_succ_lt_succ hm)
        rwa [mod_succ_add] at this

/-- The walk of the scan finds what `FirstFrom` says. -/
theorem scanFrom_eq_some_iff {items : List Item} {start j : Nat} :
    ∀ {fuel c : Nat}, c < items.length → (scanFrom items start fuel c = some j ↔ FirstFrom items start fuel c j)
  | 0, c, _ => ⟨nofun, fun ⟨_, ⟨hk, _⟩, _⟩ => absurd hk (Nat.not_lt_zero _)⟩
  | fuel + 1, c, hc => by
    have hnext : (c + 1) % items.length < items.length := Nat.mod_lt _ (hc.trans_le' (Nat.zero_le c))
    unfold scanFrom
    cases hdirty : dirtyAt items c with
    | true => simp [firstFrom_of_dirty hc hdirty]
    | false =>
      rw [firstFrom_of_clean hc hdirty, ← scanFrom_eq_some_iff hnext]
      by_cases hstart : (c + 1) % items.length = start <;> simp [hstart]

/-- The scan finds the first dirty index of its walk (rules R143, R144). -/
theorem scanTarget_eq_some_iff {s : State} {j : Nat} (hsched : schedulerOk s) :
    scanTarget (beginSweep s) = some j ↔ FirstDirty s j := by
  rw [beginSweep_eq_withScheduler]
  show scanFrom s.items (sweepFrom s) s.items.length s.scanCursor = some j ↔
    FirstFrom s.items (sweepFrom s) s.items.length s.scanCursor j
  obtain ⟨hcursor, -⟩ := hsched
  obtain hempty | hpos := Nat.eq_zero_or_pos s.items.length
  · -- an empty table has no walk
    rw [hempty]
    exact ⟨nofun, fun ⟨_, ⟨hk, _⟩, _⟩ => absurd hk (Nat.not_lt_zero _)⟩
  · exact scanFrom_eq_some_iff (by omega)

/-- A dirty index of the walk makes the scan find one. -/
theorem exists_firstDirty {s : State} {k : Nat} (hwalk : InWalk s k)
    (hdirty : dirtyAt s.items ((s.scanCursor + k) % s.items.length) = true) : ∃ j, FirstDirty s j := by
  have hex : ∃ k, dirtyAt s.items ((s.scanCursor + k) % s.items.length) = true := ⟨k, hdirty⟩
  obtain ⟨hlt, haway⟩ := hwalk
  have hle : Nat.find hex ≤ k := Nat.find_min' hex hdirty
  refine ⟨_, Nat.find hex, ⟨hle.trans_lt hlt, fun m hm hm' => haway m hm (hm'.trans hle)⟩, rfl, Nat.find_spec hex,
    fun m hm => ?_⟩
  exact Bool.eq_false_iff.2 (Nat.find_min hex hm)

/-- The scan finds nothing exactly when no index of the walk is dirty (rule R147). -/
theorem scanTarget_eq_none_iff {s : State} (hsched : schedulerOk s) :
    scanTarget (beginSweep s) = none ↔ NoneDirty s := by
  rw [Option.eq_none_iff_forall_ne_some]
  simp only [ne_eq, scanTarget_eq_some_iff hsched]
  constructor
  · intro hnone k hwalk
    refine Bool.eq_false_iff.2 fun hdirty => ?_
    obtain ⟨j, hfirst⟩ := exists_firstDirty hwalk hdirty
    exact hnone j hfirst
  · rintro hnone _ ⟨k, hwalk, rfl, hdirty, -⟩
    rw [hnone k hwalk] at hdirty
    cases hdirty

/-! ### One poll -/

/-- `s` after a poll that pushes item `j`, which is `it` (rules R145, R146). -/
def pushPolled (j : Nat) (it : Item) (time clk : Word32) (s : State) : State :=
  withScheduler (cursorAfter s.items.length (sweepFrom s) j) (openAfter s.items.length (sweepFrom s) j) (sweepFrom s)
    (pushedState j it time clk s)

/-- `s` after a poll that answers `NODATA` (rule R147). -/
def noDataPolled (time clk : Word32) (s : State) : State :=
  withScheduler ((sweepFrom s + 1) % s.items.length) false (sweepFrom s)
    (afterSend (statusFrame s 0xE2 0x00) time clk s)

/-- What a scan of a table with items does (rules R143 to R147). -/
theorem scan_of_items {s t : State} (hsched : schedulerOk s) (hne : s.items ≠ []) (h : scan s = .next t) :
    (∃ j it time clk, FirstDirty s j ∧ s.items[j]? = some it ∧ txTimeOk s time = true ∧
      t = pushPolled j it time clk s) ∨
    (NoneDirty s ∧ ∃ time clk, txTimeOk s time = true ∧ t = noDataPolled time clk s) := by
  obtain ⟨hempty, -⟩ | ⟨j, it, time, clk, htarget, hitem, htime, rfl⟩ | ⟨-, htarget, time, clk, htime, rfl⟩ :=
    scan_cases h
  · exact absurd hempty hne
  · exact .inl ⟨j, it, time, clk, (scanTarget_eq_some_iff hsched).1 htarget, hitem, htime, rfl⟩
  · exact .inr ⟨(scanTarget_eq_none_iff hsched).1 htarget, time, clk, htime, rfl⟩

theorem firstDirty_unique {s : State} {j j' : Nat} (hsched : schedulerOk s) (h : FirstDirty s j)
    (h' : FirstDirty s j') : j' = j :=
  Option.some.inj (((scanTarget_eq_some_iff hsched).2 h').symm.trans ((scanTarget_eq_some_iff hsched).2 h))

theorem not_noneDirty_of_firstDirty {s : State} {j : Nat} (h : FirstDirty s j) : ¬ NoneDirty s := by
  obtain ⟨k, hwalk, rfl, hdirty, -⟩ := h
  intro hnone
  rw [hnone k hwalk] at hdirty
  cases hdirty

theorem items_ne_nil_of_getElem? {s : State} {j : Nat} {it : Item} (h : s.items[j]? = some it) : s.items ≠ [] := by
  rintro hempty
  rw [hempty] at h
  cases h

theorem afterPush_pushPolled (j : Nat) (it : Item) (time clk : Word32) (s : State) :
    AfterPush s (pushPolled j it time clk s) j := by
  refine ⟨rfl, ?_⟩
  split
  next hend => exact ⟨if_pos hend, by simp [pushPolled, withScheduler, openAfter, hend]⟩
  next hgoes => exact ⟨if_neg hgoes, by simp [pushPolled, withScheduler, openAfter, hgoes]⟩

/-- Settles O20: over a live line the poll answers, and by `scan_of_items` it pushed the one first dirty index. -/
theorem pollPushesTheFirstDirtyItemOfItsWalk : Obligations.PollPushesTheFirstDirtyItemOfItsWalk := by
  intro s j it hsched hlive hfirst hitem hlen
  obtain ⟨t, h⟩ := Sending.exec_live (.poll 0x00) hlive
  have hscan : scan s = .next t := h
  obtain ⟨j', it', time, clk, hfirst', hitem', htime, rfl⟩ | ⟨hnone, -⟩ :=
    scan_of_items hsched (items_ne_nil_of_getElem? hitem) hscan
  · obtain rfl := firstDirty_unique hsched hfirst hfirst'
    obtain rfl := Option.some.inj (hitem'.symm.trans hitem)
    exact ⟨_, h, pushedItem_pushedState clk hitem hlen htime, afterPush_pushPolled j' it' time clk s⟩
  · exact absurd hnone (not_noneDirty_of_firstDirty hfirst)

/-- Settles O21: with no dirty index in the walk the poll was the other case of `scan_of_items`. -/
theorem pollWithNothingDirtyAnswersNoData : Obligations.PollWithNothingDirtyAnswersNoData := by
  intro s hsched hlive hne hnone
  obtain ⟨t, h⟩ := Sending.exec_live (.poll 0x00) hlive
  have hscan : scan s = .next t := h
  obtain ⟨j, it, time, clk, hfirst, -⟩ | ⟨-, time, clk, htime, rfl⟩ := scan_of_items hsched hne hscan
  · exact absurd hnone (not_noneDirty_of_firstDirty hfirst)
  · exact ⟨_, h, Sending.sends_afterSend clk htime rfl (List.append_nil _).symm rfl rfl, rfl, fun _ => rfl,
      ⟨rfl, rfl, rfl, rfl, rfl, rfl, rfl⟩, rfl, rfl, rfl⟩

/-! ### The forced poll -/

theorem schedulerOk_forceAllDirty {s : State} (hsched : schedulerOk s) : schedulerOk (forceAllDirty s) :=
  schedulerOk_setItems (List.length_map _) hsched

/-- With every item marked the walk stops at the cursor (rule R142). -/
theorem firstDirty_forceAllDirty {s : State} (hcursor : s.scanCursor < s.items.length) :
    FirstDirty (forceAllDirty s) s.scanCursor := by
  have hlength : (forceAllDirty s).items.length = s.items.length := List.length_map _
  have hself : (s.scanCursor + 0) % (forceAllDirty s).items.length = s.scanCursor := by
    rw [hlength]
    exact Nat.mod_eq_of_lt hcursor
  refine ⟨0, ⟨hlength ▸ hcursor.trans_le' (Nat.zero_le _), fun m hm hm' => absurd hm hm'.not_gt⟩, hself.symm, ?_,
    fun m hm => absurd hm (Nat.not_lt_zero m)⟩
  rw [forceAllDirty_items, dirtyAt_forceAll]
  exact decide_eq_true hcursor

/-- What a forced poll does (rule R142): the item at the cursor is pushed from the marked table. -/
theorem forcedPoll_eq_next {s t : State} {it : Item} (hsched : schedulerOk s)
    (hitem : s.items[s.scanCursor]? = some it) (h : exec Instr.fpoll s = .next t) :
    ∃ time clk, txTimeOk s time = true ∧
      t = pushPolled s.scanCursor { it with dirty := true } time clk (forceAllDirty s) := by
  have hscan : scan (forceAllDirty s) = .next t := h
  have hforced : (forceAllDirty s).items[s.scanCursor]? = some { it with dirty := true } := by simp [hitem]
  have hfirst := firstDirty_forceAllDirty (List.getElem?_eq_some_iff.1 hitem).1
  obtain ⟨j, it', time, clk, hfirst', hitem', htime, rfl⟩ | ⟨hnone, -⟩ :=
    scan_of_items (schedulerOk_forceAllDirty hsched) (items_ne_nil_of_getElem? hforced) hscan
  · obtain rfl := firstDirty_unique (schedulerOk_forceAllDirty hsched) hfirst hfirst'
    obtain rfl := Option.some.inj (hitem'.symm.trans hforced)
    exact ⟨time, clk, htime, rfl⟩
  · exact absurd hnone (not_noneDirty_of_firstDirty hfirst)

/-- Settles O22: the forced poll is the push of the cursor's item from the marked table. -/
theorem forcedPollPushesTheItemAtTheCursor : Obligations.ForcedPollPushesTheItemAtTheCursor := by
  intro s it hsched hlive hitem hlen
  obtain ⟨t, h⟩ := Sending.exec_live Instr.fpoll hlive
  obtain ⟨time, clk, htime, rfl⟩ := forcedPoll_eq_next hsched hitem h
  have hforced : (forceAllDirty s).items[s.scanCursor]? = some { it with dirty := true } := by simp [hitem]
  have hvalue : valueOf (forceAllDirty s) s.scanCursor = valueOf s s.scanCursor := by
    rw [PushLayout.valueOf_of_getElem? hforced, PushLayout.valueOf_of_getElem? hitem]
    rfl
  obtain ⟨hsends, hclean, hothers, hmem, hrest⟩ := pushedItem_pushedState clk hforced hlen htime
  rw [hvalue] at hsends
  have hadvance := afterPush_pushPolled s.scanCursor { it with dirty := true } time clk (forceAllDirty s)
  rw [AfterPush, forceAllDirty_items, List.length_map] at hadvance
  refine ⟨_, h, hsends, hclean, fun j hj => (hothers j hj).trans ?_, hmem, hrest, hadvance⟩
  exact List.getElem?_map

/-- Settles O23: marking an empty table changes nothing, and its scan is the outcome alone. -/
theorem pollOfAnEmptyTableAnswersNoData : Obligations.PollOfAnEmptyTableAnswersNoData := by
  intro s flag hlive hempty hflag
  have hscan : scan s = raise .noNewData s := by simp [scan, hempty]
  have hforced : forceAllDirty s = s := by
    rw [forceAllDirty, hempty, List.map_nil, ← hempty]
    rfl
  have hpoll : exec (.poll flag) s = raise .noNewData s := by
    obtain rfl | rfl := hflag
    · exact hscan
    · show scan (forceAllDirty s) = _
      rw [hforced, hscan]
  rw [hpoll]
  exact Sending.raise_onlySends hlive rfl

/-- Settles O24: another flag is the outcome `BadPollFlag`, under its enable. -/
theorem pollWithAnotherFlagTakesNoAction : Obligations.PollWithAnotherFlagTakesNoAction := by
  intro s flag hlive h0 h1
  have hpoll : exec (.poll flag) s = raise .badPollFlag s := (if_neg h1).trans (if_neg h0)
  rw [hpoll]
  exact ⟨Sending.raise_onlySends (x := .badPollFlag) hlive, Sending.raise_of_disabled (x := .badPollFlag)⟩

end Sys2Proof.Proofs.Polling
end

section
/-! Runs of sends over a line that returns (42_poll_scheduler.md section 3, 47_local_ops.md section 3): `PushAllDirty`,
and polls in a row of a table that is all dirty or all clean. -/

namespace Sys2Proof.Proofs.Runs

open Sys2Proof.Machine Sys2Proof.Stmt Sys2Proof.Proofs.Effects Sys2Proof.Proofs.Pushing Sys2Proof.Proofs.Polling

/-! ### A line that returns -/

theorem linkLive_of_lineReturns {s : State} (h : LineReturns s) : linkLive s := by
  have hchoice : ∃ delay flush, linkChoice s = .completes delay flush := by
    unfold linkChoice
    cases hlink : s.link with
    | nil => exact ⟨0, 0, rfl⟩
    | cons c cs => exact h c (by simp [hlink])
  obtain ⟨delay, flush, hc⟩ := hchoice
  simp [linkLive, sendStop, hc, flushHangs]

/-- A `Send` uses up one choice of the environment and leaves the others. -/
theorem lineReturns_of_link_eq_tail {s t : State} (h : LineReturns s) (hlink : t.link = s.link.tail) : LineReturns t :=
  fun c hc => h c (List.mem_of_mem_tail (hlink ▸ hc))

/-! ### The frame of an item -/

/-- The push frame of item `j`, if there is such an item (rule R179). -/
def itemFrame (s : State) (j : Nat) : Option Frame :=
  s.items[j]?.map fun it => pushFrameBytes s it (valueOf s j)

/-- `t` has the configuration, the values and the table of `s`, but for flags. -/
def SameValues (s t : State) : Prop := t.config = s.config ∧ FlagsOnly s t

theorem SameValues.refl (s : State) : SameValues s s := ⟨rfl, rfl, rfl⟩

theorem SameValues.trans {s u t : State} (h1 : SameValues s u) (h2 : SameValues u t) : SameValues s t := by
  obtain ⟨hconfig, hmem, hitems⟩ := h1
  obtain ⟨hconfig', hmem', hitems'⟩ := h2
  exact ⟨hconfig'.trans hconfig, hmem'.trans hmem, hitems'.trans hitems⟩

/-- A push frame shows neither flags nor anything else that differs. -/
theorem itemFrame_congr {s t : State} (h : SameValues s t) : itemFrame t = itemFrame s := by
  have hframe : ∀ (u : State) (j : Nat), itemFrame u j = ((u.items.map cleaned)[j]?).map fun it =>
      pushFrameBytes u it (Memory.readBytes u.mem (payloadBase j) it.len) := by
    intro u j
    unfold itemFrame valueOf
    rw [List.getElem?_map]
    cases u.items[j]? <;> rfl
  obtain ⟨hconfig, hmem, hitems⟩ := h
  funext j
  rw [hframe, hframe, hmem, hitems]
  simp only [pushFrameBytes, hconfig]

theorem itemLenOk_congr {s t : State} (h : SameValues s t) (hlens : ∀ it ∈ s.items, itemLenOk it) :
    ∀ it ∈ t.items, itemLenOk it := by
  obtain ⟨-, -, hitems⟩ := h
  have hblind : ∀ items : List Item, (∀ it ∈ items.map cleaned, itemLenOk it) ↔ ∀ it ∈ items, itemLenOk it :=
    fun _ => List.forall_mem_map
  exact (hblind t.items).1 (hitems ▸ (hblind s.items).2 hlens)

theorem length_eq_of_sameValues {s t : State} (h : SameValues s t) : t.items.length = s.items.length := by
  obtain ⟨-, -, hitems⟩ := h
  simpa using congrArg List.length hitems

theorem sameValues_pushedState (j : Nat) (it : Item) (time clk : Word32) (s : State) :
    SameValues s (pushedState j it time clk s) := ⟨rfl, rfl, map_cleaned_setDirty j false s⟩

/-- The frame a push adds (rules R179, R180). -/
theorem framesOf_pushedState {s : State} {j : Nat} {it : Item} (time clk : Word32) (hitem : s.items[j]? = some it)
    (hlen : itemLenOk it) :
    ∃ f, itemFrame s j = some f ∧
      framesOf (pushedState j it time clk s).trace = framesOf s.trace ++ [f] := by
  refine ⟨pushFrameBytes s it (valueOf s j), by rw [itemFrame, hitem]; rfl, ?_⟩
  rw [← PushLayout.pushFrameHasTheItemsLayout s j it hitem hlen]
  exact WriteRead.framesOf_afterSend _ time clk (setDirty j false s)

/-! ### `PushAllDirty` -/

theorem exists_item_of_dirtyAt {items : List Item} {j : Nat} (h : dirtyAt items j = true) :
    ∃ it, items[j]? = some it ∧ it.dirty = true := by
  unfold dirtyAt at h
  split at h
  · cases h
  next it hitem => exact ⟨it, hitem, h⟩

theorem cleaned_of_clean {it : Item} (h : it.dirty = false) : cleaned it = it := by
  rw [cleaned, ← h]

theorem cleaned_of_not_dirtyAt {items : List Item} {j : Nat} (h : dirtyAt items j = false) :
    items[j]?.map cleaned = items[j]? := by
  unfold dirtyAt at h
  cases hitem : items[j]? with
  | none => rfl
  | some it =>
    simp only [hitem] at h
    rw [Option.map_some, cleaned_of_clean h]

/-- After the pushes of the dirty items among `is`: the table and the frames sent (rule R221). -/
structure PushedEach (is : List Nat) (s t : State) : Prop where
  frames : framesOf t.trace = framesOf s.trace ++ (is.filter (dirtyAt s.items)).filterMap (itemFrame s)
  items : ∀ j, t.items[j]? = if j ∈ is then s.items[j]?.map cleaned else s.items[j]?
  mem : t.mem = s.mem
  scheduler : SameScheduler s t
  rest : SameRest s t

/-- The push of a dirty item, then the pushes of the others. -/
theorem pushedEach_cons_of_dirty {i : Nat} {is : List Nat} {it : Item} {time clk : Word32} {s t : State} (hnew : i ∉ is)
    (hitem : s.items[i]? = some it) (hdirty : dirtyAt s.items i = true) (hlen : itemLenOk it)
    (h : PushedEach is (pushedState i it time clk s) t) : PushedEach (i :: is) s t := by
  obtain ⟨hframes, hitems, hmem, hsched, hrest⟩ := h
  obtain ⟨f, hf, hpushed⟩ := framesOf_pushedState time clk hitem hlen
  refine ⟨?_, fun j => ?_, hmem, hsched, hrest⟩
  · have hsame : is.filter (dirtyAt (pushedState i it time clk s).items) = is.filter (dirtyAt s.items) := by
      refine List.filter_congr fun j hj => ?_
      have hne : ¬ (i = j ∧ j < s.items.length) := fun h => hnew (h.1 ▸ hj)
      exact (dirtyAt_setDirty s.items i j false).trans (if_neg hne)
    rw [hframes, hpushed, hsame, itemFrame_congr (sameValues_pushedState i it time clk s),
      List.filter_cons_of_pos hdirty, List.filterMap_cons_some hf, List.append_assoc, List.singleton_append]
  · rw [hitems j]
    by_cases hji : j = i
    · subst hji
      have hpush : (pushedState j it time clk s).items[j]? = some { it with dirty := false } :=
        getElem?_setDirty_self false hitem
      simp [hnew, hpush, hitem, cleaned]
    · have hkeep : (pushedState i it time clk s).items[j]? = s.items[j]? := getElem?_setDirty_ne false hji
      simp [hji, hkeep]

/-- A clean item is passed over. -/
theorem pushedEach_cons_of_clean {i : Nat} {is : List Nat} {s t : State} (hclean : dirtyAt s.items i = false)
    (h : PushedEach is s t) : PushedEach (i :: is) s t := by
  obtain ⟨hframes, hitems, hmem, hsched, hrest⟩ := h
  refine ⟨?_, fun j => ?_, hmem, hsched, hrest⟩
  · rw [hframes, List.filter_cons_of_neg (by simp [hclean])]
  · rw [hitems j]
    by_cases hji : j = i
    · subst hji
      simp [cleaned_of_not_dirtyAt hclean]
    · simp [hji]

theorem exists_pushedEach : ∀ (is : List Nat) (s : State), is.Nodup → LineReturns s →
    (∀ it ∈ s.items, itemLenOk it) → ∃ t, pushEach is s = .next t ∧ PushedEach is s t
  | [], s, _, _, _ => by
    refine ⟨s, rfl, (List.append_nil _).symm, fun j => ?_, rfl, ⟨rfl, rfl, rfl⟩, ⟨rfl, rfl, rfl, rfl, rfl, rfl, rfl⟩⟩
    exact (if_neg List.not_mem_nil).symm
  | i :: is, s, hnodup, hline, hlens => by
    obtain ⟨hnew, hnodup'⟩ := List.nodup_cons.1 hnodup
    by_cases hdirty : dirtyAt s.items i = true
    · obtain ⟨it, hitem, -⟩ := exists_item_of_dirtyAt hdirty
      obtain ⟨time, clk, -, hpush⟩ := pushItem_live hitem (linkLive_of_lineReturns hline)
      obtain ⟨t, hrun, hdone⟩ := exists_pushedEach is (pushedState i it time clk s) hnodup'
        (lineReturns_of_link_eq_tail hline rfl) (itemLenOk_congr (sameValues_pushedState i it time clk s) hlens)
      refine ⟨t, ?_, pushedEach_cons_of_dirty hnew hitem hdirty (hlens it (List.mem_of_getElem? hitem)) hdone⟩
      rw [pushEach, if_pos hdirty, hpush]
      exact hrun
    · obtain ⟨t, hrun, hdone⟩ := exists_pushedEach is s hnodup' hline hlens
      refine ⟨t, ?_, pushedEach_cons_of_clean (by simpa using hdirty) hdone⟩
      rw [pushEach, if_neg hdirty]
      exact hrun

/-- The pushes of the whole table leave every item clean. -/
theorem items_of_pushedEach_range {s t : State} (h : PushedEach (List.range s.items.length) s t) :
    t.items = s.items.map cleaned := by
  apply List.ext_getElem?
  intro j
  rw [h.items j, List.getElem?_map]
  by_cases hj : j < s.items.length
  · exact if_pos (List.mem_range.2 hj)
  · rw [if_neg (by simpa using hj), List.getElem?_eq_none (Nat.le_of_not_lt hj)]
    rfl

/-- `PushAllDirty` under its enable: the pushes of the whole table, or the outcome `NoNewData` (rule R221). -/
theorem pushAllDirty_of_fullDuplex {s u : State} (hfull : s.config.fullDuplex = true)
    (h : (if s.items.any (fun it => it.dirty) then pushEach (List.range s.items.length) s else raise .noNewData s) =
      .next u) : pushAllDirty s = .next (u.setResult .done) := by
  rw [pushAllDirty, if_pos hfull, h]
  rfl

/-- Settles O47: the indices of the table, each once, are pushed where dirty; with none dirty the answer is `NODATA`. -/
theorem pushAllDirtySendsEveryDirtyItemInOrder : Obligations.PushAllDirtySendsEveryDirtyItemInOrder := by
  intro s hready hfull hline hlens
  have hstep : step s = pushAllDirty (begun s) := LocalOps.step_of_ready hready
  rw [hstep]
  by_cases hclean : ∀ it ∈ s.items, it.dirty = false
  · have hnone : ¬ (begun s).items.any (fun it => it.dirty) = true := by
      simpa [begun] using hclean
    obtain ⟨time, clk, -, hraise⟩ := raise_live (x := .noNewData) (s := begun s) rfl (linkLive_of_lineReturns hline)
    refine ⟨_, pushAllDirty_of_fullDuplex hfull ((if_neg hnone).trans hraise), ?_, ?_, fun _ => rfl, ⟨rfl, rfl, rfl⟩,
      ⟨rfl, rfl, rfl, rfl, rfl, rfl⟩⟩
    · rw [if_pos hclean]
      exact WriteRead.framesOf_afterSend _ time clk (begun s)
    · have hsame : s.items.map cleaned = s.items.map id :=
        List.map_congr_left fun it hit => cleaned_of_clean (hclean it hit)
      rw [List.map_id] at hsame
      exact hsame.symm
  · have hsome : (begun s).items.any (fun it => it.dirty) = true := by
      simpa [begun] using hclean
    obtain ⟨t, hrun, hdone⟩ :=
      exists_pushedEach (List.range s.items.length) (begun s) List.nodup_range hline hlens
    have hitems : t.items = s.items.map cleaned := items_of_pushedEach_range (s := begun s) hdone
    obtain ⟨hconfig, hbuf, hstamp, hfifo, hinputs, -, hstarted⟩ := hdone.rest
    refine ⟨_, pushAllDirty_of_fullDuplex hfull ((if_pos hsome).trans hrun), ?_, hitems,
      fun a => congrArg (Memory.read · a) hdone.mem, hdone.scheduler, ⟨hconfig, hbuf, hstamp, hfifo, hinputs, hstarted⟩⟩
    rw [if_neg hclean]
    exact hdone.frames

/-! ### Polls in a row -/

/-- One more poll after `k` of them. -/
theorem polls_succ {flag : Byte} : ∀ {k : Nat} {s u : State}, polls flag k s = .next u →
    polls flag (k + 1) s = exec (.poll flag) u
  | 0, s, u, h => by
    cases h
    show andThen (exec (.poll flag) s) (polls flag 0) = _
    cases exec (.poll flag) s <;> rfl
  | k + 1, s, u, h => by
    obtain ⟨v, hfirst, hrest⟩ := andThen_eq_next.1 h
    show andThen (exec (.poll flag) s) (polls flag (k + 1)) = _
    rw [hfirst]
    exact polls_succ hrest

/-! ### A clean table -/

theorem dirtyAt_of_clean {items : List Item} (hclean : ∀ it ∈ items, it.dirty = false) (j : Nat) :
    dirtyAt items j = false := by
  refine Bool.eq_false_iff.2 fun hdirty => ?_
  obtain ⟨it, hitem, hset⟩ := exists_item_of_dirtyAt hdirty
  rw [hclean it (List.mem_of_getElem? hitem)] at hset
  cases hset

/-- A poll of a clean table answers `NODATA` (rule R147). -/
theorem exists_noDataPolled {s : State} (hsched : schedulerOk s) (hne : s.items ≠ []) (hline : LineReturns s)
    (hclean : ∀ it ∈ s.items, it.dirty = false) :
    ∃ time clk, exec (.poll 0x00) s = .next (noDataPolled time clk s) := by
  obtain ⟨t, h⟩ := Sending.exec_live (.poll 0x00) (linkLive_of_lineReturns hline)
  obtain ⟨j, it, time, clk, ⟨k, -, rfl, hdirty, -⟩, -⟩ | ⟨-, time, clk, -, rfl⟩ := scan_of_items hsched hne h
  · rw [dirtyAt_of_clean hclean] at hdirty
    cases hdirty
  · exact ⟨time, clk, h⟩

/-- `t` is `s` after `k` polls of a clean table, each the whole of one sweep. -/
structure IdleRun (k : Nat) (s t : State) : Prop where
  frames : framesOf t.trace = framesOf s.trace ++ List.replicate k (statusFrame s 0xE2 0x00)
  cursor : t.scanCursor = (s.scanCursor + k) % s.items.length
  closed : t.sweepInProgress = false
  items : t.items = s.items
  config : t.config = s.config
  scheduler : schedulerOk t
  line : LineReturns t

/-- One more poll: the sweep starts at the cursor and ends one after it. -/
theorem exists_idleRun_succ {k : Nat} {s u : State} (hne : s.items ≠ []) (hclean : ∀ it ∈ s.items, it.dirty = false)
    (h : IdleRun k s u) : ∃ t, exec (.poll 0x00) u = .next t ∧ IdleRun (k + 1) s t := by
  obtain ⟨hframes, hcursor, hclosed, hitems, hconfig, hsched, hline⟩ := h
  obtain ⟨time, clk, hpoll⟩ := exists_noDataPolled hsched (hitems ▸ hne) hline (hitems ▸ hclean)
  have hfrom : sweepFrom u = u.scanCursor := by simp [sweepFrom, hclosed]
  have hframe : statusFrame u 0xE2 0x00 = statusFrame s 0xE2 0x00 := by rw [statusFrame, hconfig]; rfl
  refine ⟨_, hpoll, ?_, ?_, rfl, hitems, hconfig, Steps.schedulerOk_of_effect (effect_of_exec hpoll) hsched,
    lineReturns_of_link_eq_tail hline rfl⟩
  · rw [List.replicate_succ', ← List.append_assoc, ← hframes, ← hframe]
    exact WriteRead.framesOf_afterSend _ time clk u
  · show (sweepFrom u + 1) % u.items.length = _
    rw [hfrom, hcursor, hitems, Nat.mod_add_mod, Nat.add_assoc]

theorem scanCursor_lt {s : State} (hsched : schedulerOk s) (hne : s.items ≠ []) : s.scanCursor < s.items.length := by
  have := List.length_pos_iff.2 hne
  obtain ⟨h, -⟩ := hsched
  omega

theorem exists_idleRun {s : State} (k : Nat) (hsched : schedulerOk s) (hclosed : s.sweepInProgress = false)
    (hne : s.items ≠ []) (hline : LineReturns s) (hclean : ∀ it ∈ s.items, it.dirty = false) :
    ∃ t, polls 0x00 k s = .next t ∧ IdleRun k s t := by
  induction k with
  | zero =>
    have hcursor : s.scanCursor = (s.scanCursor + 0) % s.items.length :=
      (Nat.mod_eq_of_lt (scanCursor_lt hsched hne)).symm
    exact ⟨s, rfl, (List.append_nil _).symm, hcursor, hclosed, rfl, rfl, hsched, hline⟩
  | succ k ih =>
    obtain ⟨u, hpolls, hrun⟩ := ih
    obtain ⟨t, hpoll, hrun'⟩ := exists_idleRun_succ hne hclean hrun
    exact ⟨t, (polls_succ hpolls).trans hpoll, hrun'⟩

/-- Settles O58: `exists_idleRun`. -/
theorem cleanTableAlwaysAnswersNoData : Obligations.CleanTableAlwaysAnswersNoData := by
  intro s k hsched hclosed hne hline hclean
  obtain ⟨t, hpolls, hrun⟩ := exists_idleRun k hsched hclosed hne hline hclean
  exact ⟨t, hpolls, hrun.frames, hrun.cursor, hrun.closed, hrun.items⟩

/-! ### A table that is all dirty -/

/-- The walk from `c` is back at `c` after `n` places and not before. -/
theorem add_mod_eq_self_iff {c k n : Nat} (hc : c < n) (hpos : 0 < k) (hk : k ≤ n) : (c + k) % n = c ↔ k = n := by
  constructor
  · intro h
    by_contra hne
    by_cases hwrap : c + k < n
    · rw [Nat.mod_eq_of_lt hwrap] at h
      omega
    · rw [Nat.mod_eq_sub_mod (by omega), Nat.mod_eq_of_lt (by omega)] at h
      omega
  · rintro rfl
    rw [Nat.add_mod_right, Nat.mod_eq_of_lt hc]

/-- The scheduler's registers after `k` forced polls of a fresh sweep that began at `c`, over `n` items. -/
def SweepAt (n c k : Nat) (t : State) : Prop :=
  if k = n then t.scanCursor = (c + 1) % n ∧ t.sweepInProgress = false
  else t.scanCursor = (c + k) % n ∧ sweepFrom t = c

theorem sweepAt_pushPolled {n c k : Nat} {it : Item} {time clk : Word32} {u : State} (hc : c < n) (hk : k < n)
    (hn : u.items.length = n) (hcursor : u.scanCursor = (c + k) % n) (hfrom : sweepFrom u = c) :
    SweepAt n c (k + 1) (pushPolled u.scanCursor it time clk u) := by
  have hnext : (u.scanCursor + 1) % n = (c + (k + 1)) % n := by rw [hcursor, Nat.mod_add_mod, Nat.add_assoc]
  have hback := add_mod_eq_self_iff hc (Nat.succ_pos k) hk
  have hregs : (pushPolled u.scanCursor it time clk u).scanCursor = cursorAfter n c u.scanCursor ∧
      (pushPolled u.scanCursor it time clk u).sweepInProgress = openAfter n c u.scanCursor ∧
      (pushPolled u.scanCursor it time clk u).sweepStart = c := by
    rw [← hn, ← hfrom]
    exact ⟨rfl, rfl, rfl⟩
  obtain ⟨hcur, hopen, hstart⟩ := hregs
  unfold SweepAt sweepFrom
  rw [hcur, hopen, hstart, cursorAfter, openAfter, hnext]
  by_cases hend : k + 1 = n
  · have hstop := hback.2 hend
    rw [if_pos hend, if_pos hstop, decide_eq_true hstop]
    exact ⟨rfl, rfl⟩
  · have hgoes := mt hback.1 hend
    rw [if_neg hend, if_neg hgoes, decide_eq_false hgoes]
    exact ⟨rfl, rfl⟩

/-- `t` is `s` after `k` forced polls of a fresh sweep. -/
structure ForcedRun (k : Nat) (s t : State) : Prop where
  frames : framesOf t.trace = framesOf s.trace ++
    (List.range k).filterMap fun m => itemFrame s ((s.scanCursor + m) % s.items.length)
  sweep : SweepAt s.items.length s.scanCursor k t
  values : SameValues s t
  scheduler : schedulerOk t
  line : LineReturns t

/-- One more forced poll pushes the item at the cursor. -/
theorem exists_forcedRun_succ {k : Nat} {s u : State} (hlens : ∀ it ∈ s.items, itemLenOk it)
    (hcursor : s.scanCursor < s.items.length) (hk : k < s.items.length) (h : ForcedRun k s u) :
    ∃ t, exec Instr.fpoll u = .next t ∧ ForcedRun (k + 1) s t := by
  obtain ⟨hframes, hsweep, hvalues, hsched, hline⟩ := h
  rw [SweepAt, if_neg hk.ne] at hsweep
  obtain ⟨hcur, hfrom⟩ := hsweep
  have hin : u.scanCursor < u.items.length := by
    rw [hcur, length_eq_of_sameValues hvalues]
    exact Nat.mod_lt _ (by omega)
  obtain ⟨it, hitem⟩ : ∃ it, u.items[u.scanCursor]? = some it := ⟨_, List.getElem?_eq_getElem hin⟩
  obtain ⟨t, hpoll⟩ := Sending.exec_live Instr.fpoll (linkLive_of_lineReturns hline)
  obtain ⟨time, clk, -, rfl⟩ := forcedPoll_eq_next hsched hitem hpoll
  have hforced : SameValues s (forceAllDirty u) :=
    hvalues.trans ⟨rfl, rfl, map_cleaned_scanned (i := Instr.fpoll) (.inr ⟨rfl, rfl⟩)⟩
  have hmarked : (forceAllDirty u).items[u.scanCursor]? = some { it with dirty := true } := by simp [hitem]
  obtain ⟨f, hf, hpushed⟩ := framesOf_pushedState time clk hmarked
    (itemLenOk_congr hforced hlens _ (List.mem_of_getElem? hmarked))
  rw [itemFrame_congr hforced, hcur] at hf
  refine ⟨_, hpoll, ?_, ?_, hforced.trans ?_, Steps.schedulerOk_of_effect (effect_of_exec hpoll) hsched,
    lineReturns_of_link_eq_tail hline rfl⟩
  · rw [List.range_succ, List.filterMap_append, ← List.append_assoc, ← hframes]
    simp only [List.filterMap_cons, List.filterMap_nil, hf]
    exact hpushed
  · exact sweepAt_pushPolled (u := forceAllDirty u) hcursor hk (length_eq_of_sameValues hforced) hcur hfrom
  · exact sameValues_pushedState _ { it with dirty := true } time clk (forceAllDirty u)

theorem exists_forcedRun {s : State} (hsched : schedulerOk s) (hclosed : s.sweepInProgress = false)
    (hne : s.items ≠ []) (hline : LineReturns s) (hlens : ∀ it ∈ s.items, itemLenOk it) :
    ∀ k ≤ s.items.length, ∃ t, polls 0x01 k s = .next t ∧ ForcedRun k s t := by
  have hcursor := scanCursor_lt hsched hne
  intro k
  induction k with
  | zero =>
    intro _
    refine ⟨s, rfl, (List.append_nil _).symm, ?_, .refl s, hsched, hline⟩
    rw [SweepAt, if_neg (List.length_pos_iff.2 hne).ne]
    exact ⟨(Nat.mod_eq_of_lt hcursor).symm, by simp [sweepFrom, hclosed]⟩
  | succ k ih =>
    intro hk
    obtain ⟨u, hpolls, hrun⟩ := ih (Nat.le_of_succ_le hk)
    obtain ⟨t, hpoll, hrun'⟩ := exists_forcedRun_succ hlens hcursor hk hrun
    exact ⟨t, (polls_succ hpolls).trans hpoll, hrun'⟩

/-- Settles O57: `exists_forcedRun` for as many polls as the table is long; the last one comes back to the start. -/
theorem allDirtyItemsArePushedInTurn : Obligations.AllDirtyItemsArePushedInTurn := by
  intro s hsched hclosed hne hline hlens
  obtain ⟨t, hpolls, hrun⟩ := exists_forcedRun hsched hclosed hne hline hlens s.items.length le_rfl
  have hsweep := hrun.sweep
  rw [SweepAt, if_pos rfl] at hsweep
  exact ⟨t, hpolls, hrun.frames, hsweep⟩

end Sys2Proof.Proofs.Runs
end

section
/-! Fairness of the scheduler (42_poll_scheduler.md section 3, rules R151 and R152). The walk is measured in places
after the cursor: the item waits at place `p`, the walk is `len` places long. Every poll pushes the item, or brings it
nearer within the sweep, or brings the end of the sweep nearer that it is not part of. -/

namespace Sys2Proof.Proofs.Fairness

open Sys2Proof.Machine Sys2Proof.Stmt Sys2Proof.Proofs.Effects Sys2Proof.Proofs.Pushing Sys2Proof.Proofs.Polling
open Sys2Proof.Proofs.Runs

/-! ### Places after the cursor -/

/-- Two places less than a round apart that meet at one index are one place. -/
theorem place_unique {c a b n : Nat} (h : (c + a) % n = (c + b) % n) (hab : a < b + n) (hba : b < a + n) : a = b := by
  have hmod : a ≡ b [MOD n] := Nat.ModEq.add_left_cancel' c h
  obtain hle | hle := Nat.le_total a b
  · have hdvd := (Nat.modEq_iff_dvd' hle).1 hmod
    have := Nat.eq_zero_of_dvd_of_lt hdvd (by omega)
    omega
  · have hdvd := (Nat.modEq_iff_dvd' hle).1 hmod.symm
    have := Nat.eq_zero_of_dvd_of_lt hdvd (by omega)
    omega

/-- Every index has a place less than a round after the cursor. -/
theorem exists_place {c x n : Nat} (hc : c < n) (hx : x < n) : ∃ p < n, (c + p) % n = x := by
  refine ⟨(x + n - c) % n, Nat.mod_lt _ (by omega), ?_⟩
  rw [Nat.add_mod_mod, show c + (x + n - c) = x + n by omega, Nat.add_mod_right, Nat.mod_eq_of_lt hx]

/-- Item `i` stands `p` places after the cursor, and the walk of the scan comes back to its start after `len` places. -/
def WalkTo (s : State) (i p len : Nat) : Prop :=
  (s.scanCursor + len) % s.items.length = sweepFrom s ∧ 0 < len ∧ len ≤ s.items.length ∧
    (s.scanCursor + p) % s.items.length = i ∧ p < s.items.length

theorem inWalk_iff {s : State} {i p len k : Nat} (h : WalkTo s i p len) : InWalk s k ↔ k < len := by
  obtain ⟨hstart, hpos, hlen, -⟩ := h
  constructor
  · rintro ⟨hk, haway⟩
    by_contra hback
    exact haway len hpos (Nat.le_of_not_lt hback) hstart
  · intro hk
    refine ⟨hk.trans_le hlen, fun m hm hmk hback => ?_⟩
    have := place_unique (hback.trans hstart.symm) (by omega) (by omega)
    omega

/-- A sweep that has not begun walks a whole round. -/
theorem exists_walkTo_of_closed {s : State} {i : Nat} (hclosed : s.sweepInProgress = false)
    (hcursor : s.scanCursor < s.items.length) (hi : i < s.items.length) :
    ∃ p, WalkTo s i p s.items.length := by
  obtain ⟨p, hp, hplace⟩ := exists_place hcursor hi
  refine ⟨p, ?_, by omega, le_rfl, hplace, hp⟩
  rw [Nat.add_mod_right, Nat.mod_eq_of_lt hcursor]
  simp [sweepFrom, hclosed]

theorem exists_walkTo {s : State} {i : Nat} (hsched : schedulerOk s) (hi : i < s.items.length) :
    ∃ p len, WalkTo s i p len := by
  have hstart := sweepFrom_lt hsched
  obtain ⟨hcursor, -⟩ := hsched
  obtain ⟨p, hp, hplace⟩ := exists_place (c := s.scanCursor) (n := s.items.length) (by omega) hi
  obtain ⟨len, hlen, hback⟩ :=
    exists_place (c := s.scanCursor) (x := sweepFrom s) (n := s.items.length) (by omega) (by omega)
  obtain rfl | hpos := Nat.eq_zero_or_pos len
  · -- the cursor is the start itself: the walk is a whole round
    refine ⟨p, s.items.length, ?_, by omega, le_rfl, hplace, hp⟩
    rwa [Nat.add_mod_right]
  · exact ⟨p, len, hback, hpos, hlen.le, hplace, hp⟩

/-! ### What a poll does to the walk -/

theorem length_pushPolled (j : Nat) (it : Item) (time clk : Word32) (s : State) :
    (pushPolled j it time clk s).items.length = s.items.length := List.length_modify ..

/-- Before the end of the walk the index behind a place is not the start. -/
theorem next_ne_sweepFrom {s : State} {i p len k : Nat} (h : WalkTo s i p len) (hk : k + 1 < len) :
    ¬ ((s.scanCursor + k) % s.items.length + 1) % s.items.length = sweepFrom s := by
  obtain ⟨hstart, hpos, hlen, -⟩ := h
  rw [Nat.mod_add_mod, Nat.add_assoc, ← hstart]
  intro hback
  have := place_unique hback (by omega) (by omega)
  omega

theorem scanCursor_pushPolled_of_goes {s : State} {i p len k : Nat} (it : Item) (time clk : Word32)
    (h : WalkTo s i p len) (hk : k + 1 < len) :
    (pushPolled ((s.scanCursor + k) % s.items.length) it time clk s).scanCursor =
      (s.scanCursor + (k + 1)) % s.items.length :=
  (if_neg (next_ne_sweepFrom h hk)).trans (by rw [Nat.mod_add_mod, Nat.add_assoc])

/-- After a push before the end of the walk the same sweep goes on behind the pushed item. -/
theorem walkTo_pushPolled_of_goes {s : State} {i p len k : Nat} (it : Item) (time clk : Word32)
    (h : WalkTo s i p len) (hkp : k < p) (hk : k + 1 < len) :
    WalkTo (pushPolled ((s.scanCursor + k) % s.items.length) it time clk s) i (p - (k + 1)) (len - (k + 1)) := by
  have hgoes := next_ne_sweepFrom h hk
  have hfrom : sweepFrom (pushPolled ((s.scanCursor + k) % s.items.length) it time clk s) = sweepFrom s := by
    show (if openAfter _ _ _ = true then sweepFrom s else _) = _
    rw [if_pos (by simp only [openAfter, hgoes, decide_false, Bool.not_false])]
  have hahead : ∀ m, k + 1 ≤ m → s.scanCursor + (k + 1) + (m - (k + 1)) = s.scanCursor + m := by omega
  unfold WalkTo
  rw [scanCursor_pushPolled_of_goes it time clk h hk, hfrom, length_pushPolled, Nat.mod_add_mod, Nat.mod_add_mod,
    hahead len hk.le, hahead p hkp]
  obtain ⟨hstart, hpos, hlen, hplace, hp⟩ := h
  exact ⟨hstart, by omega, by omega, hplace, by omega⟩

/-- After the push at the last place of the walk a fresh sweep follows. -/
theorem exists_walkTo_pushPolled_of_end {s : State} {i p len k : Nat} (it : Item) (time clk : Word32)
    (h : WalkTo s i p len) (hk : k + 1 = len) :
    ∃ p', WalkTo (pushPolled ((s.scanCursor + k) % s.items.length) it time clk s) i p' s.items.length := by
  obtain ⟨hstart, hpos, hlen, hplace, hp⟩ := h
  have hn : 0 < s.items.length := hpos.trans_le hlen
  have hend : ((s.scanCursor + k) % s.items.length + 1) % s.items.length = sweepFrom s := by
    rw [Nat.mod_add_mod, Nat.add_assoc, hk, hstart]
  have hcursor : (pushPolled ((s.scanCursor + k) % s.items.length) it time clk s).scanCursor =
      (sweepFrom s + 1) % s.items.length := if_pos hend
  have hclosed : (pushPolled ((s.scanCursor + k) % s.items.length) it time clk s).sweepInProgress = false := by
    show openAfter _ _ _ = false
    simp only [openAfter, hend, decide_true, Bool.not_true]
  have hfresh := exists_walkTo_of_closed (i := i) hclosed
    (by rw [hcursor, length_pushPolled]; exact Nat.mod_lt _ hn)
    (by rw [length_pushPolled, ← hplace]; exact Nat.mod_lt _ hn)
  rwa [length_pushPolled] at hfresh

/-- After a poll that found nothing a fresh sweep follows. -/
theorem exists_walkTo_noDataPolled {s : State} {i p len : Nat} (time clk : Word32) (h : WalkTo s i p len) :
    ∃ p', WalkTo (noDataPolled time clk s) i p' s.items.length := by
  obtain ⟨-, hpos, hlen, hplace, -⟩ := h
  have hn : 0 < s.items.length := hpos.trans_le hlen
  exact exists_walkTo_of_closed (s := noDataPolled time clk s) rfl (Nat.mod_lt _ hn) (hplace ▸ Nat.mod_lt _ hn)

/-! ### The four cases of a poll while an item waits -/

/-- What item `i` and its value depend on is the same. -/
structure Kept (i : Nat) (s t : State) : Prop where
  config : t.config = s.config
  mem : t.mem = s.mem
  length : t.items.length = s.items.length
  item : t.items[i]? = s.items[i]?

theorem Kept.refl (i : Nat) (s : State) : Kept i s s := ⟨rfl, rfl, rfl, rfl⟩

theorem Kept.trans {i : Nat} {s u t : State} (h1 : Kept i s u) (h2 : Kept i u t) : Kept i s t :=
  ⟨h2.config.trans h1.config, h2.mem.trans h1.mem, h2.length.trans h1.length, h2.item.trans h1.item⟩

theorem Kept.valueOf_eq {i : Nat} {s t : State} (h : Kept i s t) : valueOf t i = valueOf s i := by
  rw [valueOf, valueOf, h.item, h.mem]

/-- The poll pushes item `j`, which was dirty. -/
def Pushes (s t : State) (j : Nat) : Prop :=
  ∃ it time clk, s.items[j]? = some it ∧ txTimeOk s time = true ∧ t = pushPolled j it time clk s

theorem Pushes.kept {s t : State} {i j : Nat} (h : Pushes s t j) (hij : i ≠ j) : Kept i s t := by
  obtain ⟨it, time, clk, -, -, rfl⟩ := h
  exact ⟨rfl, rfl, length_pushPolled j it time clk s, getElem?_setDirty_ne false hij⟩

theorem Pushes.pushedItem {s t : State} {j : Nat} {it : Item} (h : Pushes s t j) (hitem : s.items[j]? = some it)
    (hlen : itemLenOk it) : PushedItem s t j it := by
  obtain ⟨it', time, clk, hitem', htime, rfl⟩ := h
  obtain rfl := Option.some.inj (hitem'.symm.trans hitem)
  exact pushedItem_pushedState clk hitem hlen htime

/-- A push clears the flag of its item and of no other. -/
theorem Pushes.dirtyAt_eq {s t : State} {j : Nat} (h : Pushes s t j) (x : Nat) :
    dirtyAt t.items x = if x = j then false else dirtyAt s.items x := by
  obtain ⟨it, time, clk, hitem, -, rfl⟩ := h
  have hj := (List.getElem?_eq_some_iff.1 hitem).1
  refine (dirtyAt_setDirty s.items j x false).trans ?_
  by_cases hx : x = j
  · subst hx
    rw [if_pos ⟨rfl, hj⟩, if_pos rfl]
  · rw [if_neg fun h => hx h.1.symm, if_neg hx]

/-- A poll while item `i` waits at place `p`. -/
inductive PollCase (s t : State) (i p len : Nat) : Prop
  /-- It is the item's turn. -/
  | turn (hp : p < len) (hpush : Pushes s t i)
  /-- An item before it is pushed, and the sweep goes on. -/
  | nearer (k : Nat) (hkp : k < p) (hk : k + 1 < len)
    (hdirty : dirtyAt s.items ((s.scanCursor + k) % s.items.length) = true)
    (hpush : Pushes s t ((s.scanCursor + k) % s.items.length)) (hkept : Kept i s t)
    (hcursor : t.scanCursor = (s.scanCursor + (k + 1)) % s.items.length)
    (hwalk : WalkTo t i (p - (k + 1)) (len - (k + 1)))
  /-- The last item of a sweep without it is pushed. -/
  | ended (k p' : Nat) (hlen : len ≤ p)
    (hdirty : dirtyAt s.items ((s.scanCursor + k) % s.items.length) = true)
    (hpush : Pushes s t ((s.scanCursor + k) % s.items.length)) (hkept : Kept i s t)
    (hwalk : WalkTo t i p' s.items.length)
  /-- A sweep without it finds nothing more. -/
  | nothing (p' : Nat) (hlen : len ≤ p) (hnone : NoneDirty s) (hitems : t.items = s.items) (hkept : Kept i s t)
    (hwalk : WalkTo t i p' s.items.length)

theorem pollCase_of_exec {s t : State} {i p len : Nat} (hsched : schedulerOk s) (hwalk : WalkTo s i p len)
    (hdirty : dirtyAt s.items i = true) (h : exec (.poll 0x00) s = .next t) : PollCase s t i p len := by
  have hne : s.items ≠ [] := by
    rintro hempty
    simp [hempty, dirtyAt] at hdirty
  obtain ⟨-, -, hlen, hplace, hp⟩ := id hwalk
  obtain ⟨j, it, time, clk, ⟨k, hk, rfl, hfound, hbefore⟩, hitem, htime, rfl⟩ | ⟨hnone, time, clk, -, rfl⟩ :=
    scan_of_items hsched hne h
  · rw [inWalk_iff hwalk] at hk
    have hpush : Pushes s (pushPolled ((s.scanCursor + k) % s.items.length) it time clk s)
        ((s.scanCursor + k) % s.items.length) := ⟨it, time, clk, hitem, htime, rfl⟩
    by_cases hkp : k = p
    · subst hkp
      rw [hplace] at hpush ⊢
      exact .turn hk hpush
    · -- before place `p` nothing else can have been found first
      have hlt : k < p := by
        by_contra hge
        have := hbefore p (by omega)
        rw [hplace, hdirty] at this
        cases this
      have hother : i ≠ (s.scanCursor + k) % s.items.length := by
        rw [← hplace]
        intro heq
        exact hkp (place_unique heq (by omega) (by omega)).symm
      by_cases hend : k + 1 = len
      · obtain ⟨p', hwalk'⟩ := exists_walkTo_pushPolled_of_end it time clk hwalk hend
        exact .ended k p' (by omega) hfound hpush (hpush.kept hother) hwalk'
      · have hgoes : k + 1 < len := by omega
        exact .nearer k hlt hgoes hfound hpush (hpush.kept hother)
          (scanCursor_pushPolled_of_goes it time clk hwalk hgoes)
          (walkTo_pushPolled_of_goes it time clk hwalk hlt hgoes)
  · have hout : len ≤ p := by
      by_contra hin
      have := hnone p ((inWalk_iff hwalk).2 (Nat.lt_of_not_le hin))
      rw [hplace, hdirty] at this
      cases this
    obtain ⟨p', hwalk'⟩ := exists_walkTo_noDataPolled time clk hwalk
    exact .nothing p' hout hnone rfl ⟨rfl, rfl, rfl, rfl⟩ hwalk'

/-! ### Nothing else is made dirty -/

/-- The dirty indices of the table. -/
def dirtySet (s : State) : Finset Nat := (Finset.range s.items.length).filter fun j => dirtyAt s.items j = true

theorem mem_dirtySet {s : State} {j : Nat} : j ∈ dirtySet s ↔ dirtyAt s.items j = true := by
  rw [dirtySet, Finset.mem_filter, Finset.mem_range]
  exact ⟨fun h => h.2, fun h => ⟨dirtyAt_lt h, h⟩⟩

theorem card_dirtySet_le (s : State) : (dirtySet s).card ≤ s.items.length :=
  (Finset.card_filter_le _ _).trans (Finset.card_range _).le

/-- A clean index leaves room in the table. -/
theorem card_dirtySet_lt {s : State} {j : Nat} (hj : j < s.items.length) (hclean : dirtyAt s.items j = false) :
    (dirtySet s).card < s.items.length := by
  have hsub : dirtySet s ⊂ Finset.range s.items.length := by
    refine Finset.filter_ssubset.2 ⟨j, Finset.mem_range.2 hj, ?_⟩
    simp [hclean]
  exact (Finset.card_lt_card hsub).trans_eq (Finset.card_range _)

/-- A push makes one index less dirty. -/
theorem card_dirtySet_of_pushes {s t : State} {j : Nat} (h : Pushes s t j) (hdirty : dirtyAt s.items j = true) :
    (dirtySet t).card < (dirtySet s).card := by
  refine Finset.card_lt_card (Finset.ssubset_iff_of_subset ?_ |>.2 ⟨j, mem_dirtySet.2 hdirty, ?_⟩)
  · intro x hx
    rw [mem_dirtySet, h.dirtyAt_eq] at hx
    split at hx
    · cases hx
    · exact mem_dirtySet.2 hx
  · rw [mem_dirtySet, h.dirtyAt_eq, if_pos rfl]
    exact Bool.false_ne_true

theorem card_dirtySet_of_items {s t : State} (h : t.items = s.items) : (dirtySet t).card = (dirtySet s).card := by
  rw [dirtySet, h]
  rfl

/-- One of the next `bound` polls from `s` pushes item `i`, which is `it` and keeps its value until then. -/
def PushedWithin (bound : Nat) (s : State) (i : Nat) (it : Item) : Prop :=
  ∃ k t u, k < bound ∧ polls 0x00 k s = .next t ∧ exec (.poll 0x00) t = .next u ∧ t.config = s.config ∧
    t.items[i]? = some it ∧ valueOf t i = valueOf s i ∧ PushedItem t u i it

/-- Over a line that returns item `i`, which is `it`, waits to be pushed. -/
structure Waiting (s : State) (i : Nat) (it : Item) : Prop where
  scheduler : schedulerOk s
  line : LineReturns s
  item : s.items[i]? = some it
  dirty : it.dirty = true
  len : itemLenOk it

theorem dirtyAt_of_item {s : State} {i : Nat} {it : Item} (hitem : s.items[i]? = some it) (hdirty : it.dirty = true) :
    dirtyAt s.items i = true := by
  simp only [dirtyAt, hitem, hdirty]

theorem Waiting.card_pos {s : State} {i : Nat} {it : Item} (h : Waiting s i it) : 0 < (dirtySet s).card :=
  Finset.card_pos.2 ⟨i, mem_dirtySet.2 (dirtyAt_of_item h.item h.dirty)⟩

/-- An item that waits is still waiting after a poll that keeps it. -/
theorem Waiting.of_kept {s t : State} {i : Nat} {it : Item} (h : Waiting s i it) (hpoll : exec (.poll 0x00) s = .next t)
    (hkept : Kept i s t) (hlink : t.link = s.link.tail) : Waiting t i it :=
  ⟨Steps.schedulerOk_of_effect (effect_of_exec hpoll) h.scheduler, lineReturns_of_link_eq_tail h.line hlink,
    hkept.item.trans h.item, h.dirty, h.len⟩

/-- Every poll of a table with items is one `Send`. -/
theorem link_of_poll {s t : State} (hsched : schedulerOk s) (hne : s.items ≠ []) (h : exec (.poll 0x00) s = .next t) :
    t.link = s.link.tail := by
  obtain ⟨j, it, time, clk, -, -, -, rfl⟩ | ⟨-, time, clk, -, rfl⟩ := scan_of_items hsched hne h
  · rfl
  · rfl

/-- The first poll makes the difference of one. -/
theorem PushedWithin.succ {bound : Nat} {s t : State} {i : Nat} {it : Item} (hpoll : exec (.poll 0x00) s = .next t)
    (hkept : Kept i s t) (h : PushedWithin bound t i it) : PushedWithin (bound + 1) s i it := by
  obtain ⟨k, u, v, hk, hpolls, hlast, hconfig, hitem, hvalue, hpushed⟩ := h
  refine ⟨k + 1, u, v, Nat.succ_lt_succ hk, ?_, hlast, hconfig.trans hkept.config, hitem,
    hvalue.trans hkept.valueOf_eq, hpushed⟩
  show andThen (exec (.poll 0x00) s) (polls 0x00 k) = _
  rw [hpoll]
  exact hpolls

theorem pushedWithin_of_turn {bound : Nat} {s t : State} {i : Nat} {it : Item} (hwait : Waiting s i it)
    (hpoll : exec (.poll 0x00) s = .next t) (hpush : Pushes s t i) : PushedWithin (bound + 1) s i it :=
  ⟨0, s, t, Nat.succ_pos _, rfl, hpoll, rfl, hwait.item, rfl, hpush.pushedItem hwait.item hwait.len⟩

/-- What a poll of a waiting item answers. -/
theorem Waiting.exists_pollCase {s : State} {i p len : Nat} {it : Item} (h : Waiting s i it)
    (hwalk : WalkTo s i p len) :
    ∃ t, exec (.poll 0x00) s = .next t ∧ PollCase s t i p len ∧ (Kept i s t → Waiting t i it) := by
  obtain ⟨t, hpoll⟩ := Sending.exec_live (.poll 0x00) (linkLive_of_lineReturns h.line)
  exact ⟨t, hpoll, pollCase_of_exec h.scheduler hwalk (dirtyAt_of_item h.item h.dirty) hpoll,
    fun hkept => h.of_kept hpoll hkept (link_of_poll h.scheduler (items_ne_nil_of_getElem? h.item) hpoll)⟩

/-- An item of the walk is pushed before or when all dirty items are. -/
theorem pushedWithin_of_inside {i : Nat} {it : Item} : ∀ {bound : Nat} {s : State} {p len : Nat}, Waiting s i it →
    WalkTo s i p len → p < len → (dirtySet s).card ≤ bound → PushedWithin bound s i it
  | 0, s, p, len, hwait, _, _, hcard => absurd hcard hwait.card_pos.not_ge
  | bound + 1, s, p, len, hwait, hwalk, hp, hcard => by
    obtain ⟨t, hpoll, hcase, hwait'⟩ := hwait.exists_pollCase hwalk
    cases hcase with
    | turn _ hpush => exact pushedWithin_of_turn hwait hpoll hpush
    | nearer k hkp hk hdirty hpush hkept _ hwalk' =>
      have hless := card_dirtySet_of_pushes hpush hdirty
      exact .succ hpoll hkept (pushedWithin_of_inside (hwait' hkept) hwalk' (by omega) (by omega))
    | ended k p' hlen => exact absurd hp hlen.not_gt
    | nothing p' hlen => exact absurd hp hlen.not_gt

/-- Every index of a walk of `len` places is dirty. -/
def AllDirty (s : State) (len : Nat) : Prop :=
  ∀ m < len, dirtyAt s.items ((s.scanCursor + m) % s.items.length) = true

/-- What is left of the walk behind a pushed item is as dirty as before. -/
theorem allDirty_of_nearer {s t : State} {len k : Nat} (hlen : len ≤ s.items.length) (hall : AllDirty s len)
    (hk : k + 1 < len) (hpush : Pushes s t ((s.scanCursor + k) % s.items.length))
    (hlength : t.items.length = s.items.length) (hcursor : t.scanCursor = (s.scanCursor + (k + 1)) % s.items.length) :
    AllDirty t (len - (k + 1)) := by
  intro m hm
  rw [hcursor, hlength, Nat.mod_add_mod, Nat.add_assoc, hpush.dirtyAt_eq, if_neg]
  · exact hall (k + 1 + m) (by omega)
  · intro hback
    have := place_unique hback (by omega) (by omega)
    omega

/-- An item outside the walk is pushed when all dirty items are, one poll later if the sweep ends without a push. -/
theorem pushedWithin_of_outside {i : Nat} {it : Item} : ∀ {bound : Nat} {s : State} {p len : Nat}, Waiting s i it →
    WalkTo s i p len → len ≤ p →
    ((dirtySet s).card + 1 ≤ bound ∨ (dirtySet s).card ≤ bound ∧ AllDirty s len) → PushedWithin bound s i it
  | 0, s, p, len, hwait, _, _, hcard => by
    have := hwait.card_pos
    omega
  | bound + 1, s, p, len, hwait, hwalk, hout, hcard => by
    obtain ⟨t, hpoll, hcase, hwait'⟩ := hwait.exists_pollCase hwalk
    obtain ⟨-, hpos, hlen, -, hp⟩ := id hwalk
    cases hcase with
    | turn hin => exact absurd hin hout.not_gt
    | nearer k hkp hk hdirty hpush hkept hcursor hwalk' =>
      have hless := card_dirtySet_of_pushes hpush hdirty
      refine .succ hpoll hkept (pushedWithin_of_outside (hwait' hkept) hwalk' (by omega) ?_)
      obtain hcard | ⟨hcard, hall⟩ := hcard
      · exact .inl (by omega)
      · exact .inr ⟨by omega, allDirty_of_nearer hlen hall hk hpush hkept.length hcursor⟩
    | ended k p' _ hdirty hpush hkept hwalk' =>
      have hless := card_dirtySet_of_pushes hpush hdirty
      obtain ⟨-, -, -, -, hp'⟩ := id hwalk'
      exact .succ hpoll hkept (pushedWithin_of_inside (hwait' hkept) hwalk' (hkept.length ▸ hp') (by omega))
    | nothing p' _ hnone hitems hkept hwalk' =>
      have hsame := card_dirtySet_of_items hitems
      obtain ⟨-, -, -, -, hp'⟩ := id hwalk'
      -- the walk held a clean index, so the count of dirty ones is below the bound
      have hroom : (dirtySet s).card ≤ bound := by
        obtain hcard | ⟨-, hall⟩ := hcard
        · omega
        · have := hnone 0 ((inWalk_iff hwalk).2 hpos)
          rw [hall 0 hpos] at this
          cases this
      exact .succ hpoll hkept (pushedWithin_of_inside (hwait' hkept) hwalk' (hkept.length ▸ hp') (by omega))

/-- Settles O59: the item is in the walk, or outside a walk that is all dirty, or a clean index leaves a poll to spare.
-/
theorem dirtyItemIsPushedWithinNPolls : Obligations.DirtyItemIsPushedWithinNPolls := by
  intro s i it hsched hline hitem hdirty hlenOk
  have hwait : Waiting s i it := ⟨hsched, hline, hitem, hdirty, hlenOk⟩
  have hcard := card_dirtySet_le s
  obtain ⟨p, len, hwalk⟩ := exists_walkTo hsched (List.getElem?_eq_some_iff.1 hitem).1
  obtain ⟨-, -, hlen, -, hp⟩ := id hwalk
  by_cases hin : p < len
  · exact pushedWithin_of_inside hwait hwalk hin hcard
  · refine pushedWithin_of_outside hwait hwalk (Nat.le_of_not_lt hin) ?_
    by_cases hall : AllDirty s len
    · exact .inr ⟨hcard, hall⟩
    · obtain ⟨m, hclean⟩ := not_forall.1 hall
      obtain ⟨-, hclean⟩ := Classical.not_imp.1 hclean
      have hm : (s.scanCursor + m) % s.items.length < s.items.length := Nat.mod_lt _ (by omega)
      exact .inl (card_dirtySet_lt hm (by simpa using hclean))

/-! ### Items made dirty again -/

/-- How many polls an item at place `p` waits at most: its place in the walk, or the walk and a whole round. -/
def patience (n p len : Nat) : Nat := if p < len then p + 1 else len + n

/-- A poll that does not push the item takes from the patience it needs. -/
theorem patience_lt {s t : State} {i p len : Nat} (hwalk : WalkTo s i p len) (h : PollCase s t i p len) :
    Pushes s t i ∨ ∃ p' len', WalkTo t i p' len' ∧ Kept i s t ∧
      patience s.items.length p' len' < patience s.items.length p len := by
  obtain ⟨-, hpos, hlen, -, hp⟩ := hwalk
  cases h with
  | turn _ hpush => exact .inl hpush
  | nearer k hkp hk _ _ hkept _ hwalk' =>
    refine .inr ⟨_, _, hwalk', hkept, ?_⟩
    unfold patience
    split <;> split <;> omega
  | ended k p' hout _ _ hkept hwalk' =>
    obtain ⟨-, -, -, -, hp'⟩ := id hwalk'
    refine .inr ⟨_, _, hwalk', hkept, ?_⟩
    rw [hkept.length] at hp'
    rw [patience, patience, if_pos hp', if_neg hout.not_gt]
    omega
  | nothing p' hout _ _ hkept hwalk' =>
    obtain ⟨-, -, -, -, hp'⟩ := id hwalk'
    refine .inr ⟨_, _, hwalk', hkept, ?_⟩
    rw [hkept.length] at hp'
    rw [patience, patience, if_pos hp', if_neg hout.not_gt]
    omega

theorem length_withMarks {marked : List Bool} {s : State} (h : marked.length = s.items.length) :
    (withMarks marked s).items.length = s.items.length := by
  simp [withMarks, h]

/-- Marking leaves a dirty item as it is, and everything but flags. -/
theorem kept_withMarks {marked : List Bool} {s : State} {i : Nat} {it : Item} (h : marked.length = s.items.length)
    (hitem : s.items[i]? = some it) (hdirty : it.dirty = true) : Kept i s (withMarks marked s) := by
  refine ⟨rfl, rfl, length_withMarks h, ?_⟩
  have hi := (List.getElem?_eq_some_iff.1 hitem).1
  have hmark := List.getElem?_eq_getElem (h ▸ hi : i < marked.length)
  have hsame : { it with dirty := it.dirty || marked[i]'(h ▸ hi) } = it := by rw [hdirty, Bool.true_or, ← hdirty]
  rw [hitem, withMarks, List.getElem?_zipWith_eq_some]
  exact ⟨it, _, hitem, hmark, hsame⟩

theorem walkTo_withMarks {marked : List Bool} {s : State} {i p len : Nat} (h : marked.length = s.items.length)
    (hwalk : WalkTo s i p len) : WalkTo (withMarks marked s) i p len := by
  unfold WalkTo
  rw [length_withMarks h]
  exact hwalk

theorem schedulerOk_withMarks {marked : List Bool} {s : State} (h : marked.length = s.items.length)
    (hsched : schedulerOk s) : schedulerOk (withMarks marked s) := by
  unfold schedulerOk
  rw [length_withMarks h]
  exact hsched

/-- Before poll `k` item `i` is `it`, with the value it had at the start, and that poll pushes it. -/
def PushedAt (run : Nat → State) (marked : Nat → List Bool) (i : Nat) (it : Item) (k : Nat) : Prop :=
  (withMarks (marked k) (run k)).items[i]? = some it ∧ (run k).config = (run 0).config ∧
    valueOf (run k) i = valueOf (run 0) i ∧ PushedItem (withMarks (marked k) (run k)) (run (k + 1)) i it

/-- By induction on the patience the item needs, which marks do not touch: of `last` polls one pushes the item, if it
needs no more than are left. -/
theorem exists_pushedAt {run : Nat → State} {marked : Nat → List Bool} {i last : Nat} {it : Item}
    (hmarked : ∀ k, (marked k).length = (run 0).items.length)
    (hpolls : ∀ k < last, exec (.poll 0x00) (withMarks (marked k) (run k)) = .next (run (k + 1)))
    (hitem : (run 0).items[i]? = some it) (hdirty : it.dirty = true) (hlenOk : itemLenOk it) :
    ∀ {bound k p len : Nat}, k + bound ≤ last → schedulerOk (run k) → Kept i (run 0) (run k) →
      WalkTo (run k) i p len → patience (run 0).items.length p len ≤ bound →
      ∃ k < last, PushedAt run marked i it k
  | 0, k, p, len, _, _, _, hwalk, hpatience => by
    obtain ⟨-, hpos, -⟩ := hwalk
    unfold patience at hpatience
    split at hpatience <;> omega
  | bound + 1, k, p, len, hk, hsched, hkept, hwalk, hpatience => by
    have hlength : (marked k).length = (run k).items.length := (hmarked k).trans hkept.length.symm
    have hmark := kept_withMarks hlength (hkept.item.trans hitem) hdirty
    have hitem' := (hkept.trans hmark).item.trans hitem
    have hwalk' := walkTo_withMarks hlength hwalk
    have hsched' := schedulerOk_withMarks hlength hsched
    have hpoll := hpolls k (by omega)
    have hcase := pollCase_of_exec hsched' hwalk' (dirtyAt_of_item hitem' hdirty) hpoll
    obtain hpush | ⟨p', len', hnext, hkept', hless⟩ := patience_lt hwalk' hcase
    · exact ⟨k, by omega, hitem', hkept.config, hkept.valueOf_eq, hpush.pushedItem hitem' hlenOk⟩
    · rw [(hkept.trans hmark).length] at hless
      exact exists_pushedAt hmarked hpolls hitem hdirty hlenOk (by omega : k + 1 + bound ≤ last)
        (Steps.schedulerOk_of_effect (effect_of_exec hpoll) hsched') (hkept.trans (hmark.trans hkept')) hnext (by omega)

/-- Settles O60: at the start the item needs a patience of `2N - 1` at most: it is in the walk, or outside one that is
shorter than a round. -/
theorem noItemStarvesUnderRedirtying : Obligations.NoItemStarvesUnderRedirtying := by
  intro run marked i it hsched hmarked hpolls hitem hdirty hlenOk
  obtain ⟨p, len, hwalk⟩ := exists_walkTo hsched (List.getElem?_eq_some_iff.1 hitem).1
  have hpatience : patience (run 0).items.length p len ≤ 2 * (run 0).items.length - 1 := by
    obtain ⟨-, hpos, hlen, -, hp⟩ := hwalk
    unfold patience
    split <;> omega
  exact exists_pushedAt hmarked hpolls hitem hdirty hlenOk (Nat.zero_add _).le hsched (.refl i (run 0)) hwalk hpatience

end Sys2Proof.Proofs.Fairness
end
